-- ==== Sys2Proof/Word.lean ====
section
/-! DEFINITION. The word types of CTRDEC: bytes, 16-bit seeds, 32-bit command and response words, 16-byte blocks
(00_scope.md R9). -/

namespace Sys2Proof

/-- A byte: "an integer in 0..255", treated as bits (R9). -/
abbrev Byte := BitVec 8

/-- A 32-bit command or response word (R33, R70). -/
abbrev Word := BitVec 32

/-- The 16-bit counter seed `v` (00_scope.md glossary, R7 `SEED_BITS`). -/
abbrev Seed := BitVec 16

/-- A 16-byte array, index 0 first on the wire and in the AES byte order (R9). -/
abbrev Block := Vector Byte 16

/-- The block of sixteen zero bytes. -/
def Block.zero : Block := Vector.replicate 16 0

end Sys2Proof
end

