-- ==== Sys2Proof/Machine/Operands.lean ====
section
/-! DEFINITION. The fields of a command word (30_encoding.md R71 to R73) and the seed assembled from two wire bytes
(20_memory.md R51). -/

namespace Sys2Proof.Machine

/-- `OP = cmd[31:28]` (R71). -/
def opField (cmd : Word) : BitVec 4 := cmd.extractLsb' 28 4

/-- `IDX = cmd[19:16]` of format KB (R72, R73). -/
def idxFieldKB (cmd : Word) : BitVec 4 := cmd.extractLsb' 16 4

/-- `IDX = cmd[3:0]` of format N (R72, R73). -/
def idxFieldN (cmd : Word) : BitVec 4 := cmd.extractLsb' 0 4

/-- `BYTE = cmd[7:0]` of formats KB and B (R72, R73). -/
def byteField (cmd : Word) : Byte := cmd.extractLsb' 0 8

/-- `V = cmd[15:0]` of format H (R72, R73). -/
def seedField (cmd : Word) : Seed := cmd.extractLsb' 0 16

/-- The seed from its two wire bytes, low byte first: `FLO | b << 8` (R51, 44_framer.md R173). -/
def seedOfBytes (lo hi : Byte) : Seed := lo.setWidth 16 ||| (hi.setWidth 16 <<< 8)

end Sys2Proof.Machine
end

