-- ==== Sys2Proof/Syntax.lean ====
section
/-! DEFINITION. The commands of CTRDEC: one constructor per row of spec/opcode_table.json (30_encoding.md R74). Each operand
has exactly the width of its field, and every value of a field is legal (R73). -/

namespace Sys2Proof

/-- A decoded command. -/
inductive Instr where
  /-- NOP (R190). -/
  | nop
  /-- KEYB idx, byte (R100). -/
  | keyb (idx : BitVec 4) (byte : Byte)
  /-- KEYLOCK (R101). -/
  | keylock
  /-- SEED v (R111). -/
  | seed (v : Seed)
  /-- XORB byte (R152). -/
  | xorb (byte : Byte)
  /-- FRAMEB byte (R170). -/
  | frameb (byte : Byte)
  /-- FRAMEEND (R176). -/
  | frameend
  /-- RDCTR idx (R112). -/
  | rdctr (idx : BitVec 4)
  /-- CLRERR (R191). -/
  | clrerr
deriving DecidableEq, Repr

end Sys2Proof
end

