-- ==== Sys2Proof/Decode.lean ====
section
/-! DEFINITION. Decoding, total on all 2^32 words (30_encoding.md R77), and the encoder written from the same table (R74, R79).
A word that is no command is rejected by name: a reserved opcode (R76) or a must-be-zero bit set (R75). -/

namespace Sys2Proof

open Sys2Proof.Machine

/-- Why a word is no command. The block records both as the one cause `ILLEGAL` (R75, R76). -/
inductive IllegalWord where
  /-- `OP` in 0x9..0xF (R76). -/
  | reservedOpcode
  /-- `OP` in 0x0..0x8 with a must-be-zero bit set (R75). -/
  | mustBeZero
deriving DecidableEq, Repr

/-- What a word decodes to: a command, or the verdict ILLEGAL with its reason (R77). -/
inductive Decoded where
  | instr (i : Instr)
  | illegal (why : IllegalWord)
deriving DecidableEq, Repr

/-- The command `i` if the must-be-zero bits `mbz` of the word are clear, the verdict ILLEGAL otherwise (R75). -/
def decodeIfZero (cmd mbz : Word) (i : Instr) : Decoded :=
  if cmd &&& mbz = 0 then .instr i else .illegal .mustBeZero

/-- The procedure `Decode` of R77. -/
def decode (cmd : Word) : Decoded :=
  match (opField cmd).toNat with
  | 0x0 => decodeIfZero cmd 0x0FFFFFFF .nop
  | 0x1 => decodeIfZero cmd 0x0FF0FF00 (.keyb (idxFieldKB cmd) (byteField cmd))
  | 0x2 => decodeIfZero cmd 0x0FFFFFFF .keylock
  | 0x3 => decodeIfZero cmd 0x0FFF0000 (.seed (seedField cmd))
  | 0x4 => decodeIfZero cmd 0x0FFFFF00 (.xorb (byteField cmd))
  | 0x5 => decodeIfZero cmd 0x0FFFFF00 (.frameb (byteField cmd))
  | 0x6 => decodeIfZero cmd 0x0FFFFFFF .frameend
  | 0x7 => decodeIfZero cmd 0x0FFFFFF0 (.rdctr (idxFieldN cmd))
  | 0x8 => decodeIfZero cmd 0x0FFFFFFF .clrerr
  | _ => .illegal .reservedOpcode

/-- The `match` word of a command's row of R74. -/
def matchWord : Instr → Word
  | .nop => 0x00000000
  | .keyb _ _ => 0x10000000
  | .keylock => 0x20000000
  | .seed _ => 0x30000000
  | .xorb _ => 0x40000000
  | .frameb _ => 0x50000000
  | .frameend => 0x60000000
  | .rdctr _ => 0x70000000
  | .clrerr => 0x80000000

/-- The `mask` word of a command's row of R74. -/
def maskWord : Instr → Word
  | .nop => 0xFFFFFFFF
  | .keyb _ _ => 0xFFF0FF00
  | .keylock => 0xFFFFFFFF
  | .seed _ => 0xFFFF0000
  | .xorb _ => 0xFFFFFF00
  | .frameb _ => 0xFFFFFF00
  | .frameend => 0xFFFFFFFF
  | .rdctr _ => 0xFFFFFFF0
  | .clrerr => 0xFFFFFFFF

/-- The operand bits of a command, each field in its place (R72). -/
def operandBits : Instr → Word
  | .nop => 0
  | .keyb idx byte => (idx.setWidth 32 <<< 16) ||| byte.setWidth 32
  | .keylock => 0
  | .seed v => v.setWidth 32
  | .xorb byte => byte.setWidth 32
  | .frameb byte => byte.setWidth 32
  | .frameend => 0
  | .rdctr idx => idx.setWidth 32
  | .clrerr => 0

/-- The word of a command (R79, "encodes to"). -/
def encode (i : Instr) : Word := matchWord i ||| operandBits i

/-- What the decoder reads from a command whose `nbits` low bits are those of `w` and whose other bits are 0. A command is
one 32-bit word handed over whole on `CMD` (R70), so no byte order enters. -/
def decodeTableWord (nbits w : Nat) : Option Instr :=
  match decode (BitVec.ofNat 32 (w % 2 ^ nbits)) with
  | .instr i => some i
  | .illegal _ => none

end Sys2Proof
end

