-- ==== Sys2Proof/Config.lean ====
section
/-! DEFINITION. The parameters of CTRDEC (00_scope.md R7, R8). All are constants of version 1 but `CTR_INC`, which a model
takes as an argument: its two values are the type `CtrInc`, and the machine's `State` carries the value in force. -/

namespace Sys2Proof

/-- The open parameter `CTR_INC` (R7, 92_eei_decisions.md D10): how the counter advances (R150). -/
inductive CtrInc where
  /-- 128-bit little-endian: byte 0 is least significant. -/
  | le128
  /-- 128-bit big-endian: byte 15 is least significant. -/
  | be128
deriving DecidableEq, Repr

namespace Config

/-- The default of `CTR_INC` (R7: "`LE128` (default) or `BE128`"). -/
def ctrIncDefault : CtrInc := .le128

/-- `SEED_OFFSET`: slice bytes 5 and 6 hold the seed, low byte first (R7, 90_conflicts.md C1). -/
abbrev seedOffset : Nat := 5

/-- `FP_OFFSET`: slice byte 7 is the key fingerprint (R7, C2). -/
abbrev fpOffset : Nat := 7

/-- `CT_OFFSET`: ciphertext begins at slice byte 8 (R7, C3). -/
abbrev ctOffset : Nat := 8

/-- The constraints R8 puts on the three offsets. -/
def offsetsOk (seed fp ct : Nat) : Bool :=
  decide (seed + 1 < ct) && decide (fp < ct) && decide (fp ≠ seed) && decide (fp ≠ seed + 1)

end Config

end Sys2Proof
end

