-- ==== Sys2Proof/Machine/State.lean ====
section
/-! DEFINITION. The state of CTRDEC: exactly the elements of 10_state.md R22, and with them the model's own three fields:
the parameter `CTR_INC` and the two ends of the host interface. Reset values: 70_reset_and_hazards.md R231. -/

namespace Sys2Proof.Machine

/-- One event from the host (R234: "each a command word or `RST`"). -/
inductive HostEvent where
  /-- A command word on `CMD`. -/
  | cmd (w : Word)
  /-- An assertion of `RST`. -/
  | rst
deriving DecidableEq, Repr

/-- The causes for which the block refuses a command (60_exceptions.md R200). A refusal is an outcome of the BLOCK: the
model answers a next state for it. -/
inductive Cause where
  /-- Code 1: reserved opcode, or a must-be-zero bit set. -/
  | illegal
  /-- Code 2: `KLOCK = 0`. -/
  | nokey
  /-- Code 3: `KLOCK = 1` and `CVALID = 0`. -/
  | noctr
  /-- Code 4: `KLOCK = 1`. -/
  | keylocked
  /-- Code 5: `0 < FPOS < CT_OFFSET`. -/
  | short
deriving DecidableEq, Repr

/-- The state of the block, the parameter it was built with, and its command and response streams. -/
structure State where
  /-- `KEY[0..15]` (R24). -/
  key : Block
  /-- `KLOCK` (R25). -/
  klock : Bool
  /-- `CTR[0..15]` (R26). -/
  ctr : Block
  /-- `CVALID` (R27). -/
  cvalid : Bool
  /-- `KS[0..15]` (R28). -/
  ks : Block
  /-- `KIDX`, an integer in 0..16 (R29). -/
  kidx : Fin 17
  /-- `FPOS`, an integer in 0..`CT_OFFSET`, which is 8 (R30, R7). -/
  fpos : Fin 9
  /-- `FLO` (R31). -/
  flo : Byte
  /-- `FPM` (R32). -/
  fpm : Bool
  /-- `E_ILL` (R35). -/
  eIll : Bool
  /-- `E_NOKEY` (R35). -/
  eNokey : Bool
  /-- `E_NOCTR` (R35). -/
  eNoctr : Bool
  /-- `E_KLOCK` (R35). -/
  eKlock : Bool
  /-- `E_SHORT` (R35). -/
  eShort : Bool
  /-- `LCAUSE`, 3 bits (R36). -/
  lcause : BitVec 3
  /-- The parameter `CTR_INC` (R7, R39). DESIGN CHOICE (log entry 1): carried here because a step has no other argument. -/
  ctrInc : CtrInc
  /-- The host events not yet taken, first one next (R21, R234). DESIGN CHOICE (log entry 2). -/
  inbox : List HostEvent
  /-- The response words returned so far, oldest first (R21, R234). DESIGN CHOICE (log entry 2). -/
  outbox : List Word
deriving DecidableEq, Repr

/-- Faults of the model: none. "Nothing in CTRDEC is treated as `fault` or `stuck`" (93_implementation_defined.md), so no
step can answer one. -/
inductive Fault where
deriving DecidableEq, Repr

/-- Refusals of the model (not of the block: see `Cause`). -/
inductive Refusal where
  /-- Raised by `exec` alone, for an instruction without a meaning. Every instruction has its meaning, so nothing raises it.
  It would be safe: the run stops. -/
  | notModelled (mnemonic : String)
deriving DecidableEq, Repr

/-- The machine right after reset (R231), with the default parameter (R7), no host event pending and no response given. -/
def State.reset : State where
  key := Block.zero
  klock := false
  ctr := Block.zero
  cvalid := false
  ks := Block.zero
  kidx := 16
  fpos := 0
  flo := 0
  fpm := false
  eIll := false
  eNokey := false
  eNoctr := false
  eKlock := false
  eShort := false
  lcause := 0
  ctrInc := Config.ctrIncDefault
  inbox := []
  outbox := []

end Sys2Proof.Machine
end

