-- ==== Sys2Proof/Machine/Flags.lean ====
section
/-! DEFINITION. The two words the host reads: the STATUS view (10_state.md R34) and the response word RESP (R33), and the
cause codes and sticky bits of a refusal (60_exceptions.md R200). -/

namespace Sys2Proof.Machine

/-- A one-bit STATUS field at bit `n`. -/
def statusBit (n : Nat) (b : Bool) : BitVec 16 := (BitVec.ofBool b).setWidth 16 <<< n

/-- `FACT`: a frame is in progress (R34). -/
def frameActive (s : State) : Bool := decide (s.fpos ≠ 0)

/-- `KSE`: no keystream byte is buffered (R34). -/
def keystreamEmpty (s : State) : Bool := decide (s.kidx = 16)

/-- The STATUS word (R34). Bits 7:5 are always 0. -/
def status (s : State) : BitVec 16 :=
  statusBit 0 s.klock ||| statusBit 1 s.cvalid ||| statusBit 2 (frameActive s) ||| statusBit 3 s.fpm |||
  statusBit 4 (keystreamEmpty s) ||| statusBit 8 s.eIll ||| statusBit 9 s.eNokey ||| statusBit 10 s.eNoctr |||
  statusBit 11 s.eKlock ||| statusBit 12 s.eShort ||| (s.lcause.setWidth 16 <<< 13)

/-- The response word: `zext(STATUS) << 16 | acc << 9 | dv << 8 | data` (R33). Bits 15:10 are always 0. -/
def respWord (acc dv : Bool) (data : Byte) (st : BitVec 16) : Word :=
  (st.setWidth 32 <<< 16) ||| ((BitVec.ofBool acc).setWidth 32 <<< 9) ||| ((BitVec.ofBool dv).setWidth 32 <<< 8) |||
  data.setWidth 32

/-- `DATA`, bits 7:0 of a response (R33). -/
def respData (r : Word) : Byte := r.extractLsb' 0 8

/-- `DV`, bit 8 of a response (R33). -/
def respDv (r : Word) : Bool := r.getLsbD 8

/-- `ACC`, bit 9 of a response (R33). -/
def respAcc (r : Word) : Bool := r.getLsbD 9

/-- `STATUS`, bits 31:16 of a response (R33). -/
def respStatus (r : Word) : BitVec 16 := r.extractLsb' 16 16

/-- The code of a cause, as `LCAUSE` holds it (R200). -/
def causeCode : Cause → BitVec 3
  | .illegal => 1
  | .nokey => 2
  | .noctr => 3
  | .keylocked => 4
  | .short => 5

end Sys2Proof.Machine
end

