-- ==== Sys2Proof/Machine/Ops.lean ====
section
/-! DEFINITION. The named operations over the state that the commands share: the response, the refusal (the block's one
exception-like event, 60_exceptions.md R203), the writes of the key store, the framer and the error record, and reset. -/

namespace Sys2Proof.Machine

/-- What a command answers in this model. -/
abbrev Result := Host.Outcome State Fault Refusal

/-- `respond(acc, dv, data)`: the response carries STATUS as it stands after the command's writes (R33). -/
def respond (acc dv : Bool) (data : Byte) (s : State) : State :=
  { s with outbox := s.outbox ++ [respWord acc dv data (status s)] }

/-- `respond(1, 0, 0x00)`: performed, no data byte. -/
def accept (s : State) : State := respond true false 0 s

/-- `respond(1, 1, data)`: performed, with a data byte. -/
def acceptData (data : Byte) (s : State) : State := respond true true data s

/-- The two writes of `Refuse(c)`: its sticky bit and `LCAUSE` (R203). -/
def recordCause (c : Cause) (s : State) : State :=
  { s with
    eIll := s.eIll || decide (c = .illegal)
    eNokey := s.eNokey || decide (c = .nokey)
    eNoctr := s.eNoctr || decide (c = .noctr)
    eKlock := s.eKlock || decide (c = .keylocked)
    eShort := s.eShort || decide (c = .short)
    lcause := causeCode c }

/-- `raise Refuse(c)` (R203): record the cause, then `respond(0, 0, 0x00)`. There is no trap entry, saved state or vector
(R206), and no return from one (R207): the block accepts the next command. -/
def refuse (c : Cause) (s : State) : State := respond false false 0 (recordCause c s)

/-- The error record cleared: all sticky bits and `LCAUSE` 0 (45_control.md R191). -/
def clearErrors (s : State) : State :=
  { s with eIll := false, eNokey := false, eNoctr := false, eKlock := false, eShort := false, lcause := 0 }

/-- `KEY[idx] <- byte` (40_key.md R100). -/
def writeKey (idx : BitVec 4) (byte : Byte) (s : State) : State :=
  { s with key := s.key.set idx.toNat byte }

/-- `KLOCK <- 1` (R101). -/
def lockKey (s : State) : State := { s with klock := true }

/-- `CTR[idx]` (41_nonce.md R112). -/
def readCtr (idx : BitVec 4) (s : State) : Byte := s.ctr[idx.toNat]

/-- `FPM <- b` (44_framer.md R170, R174). -/
def setFpm (b : Bool) (s : State) : State := { s with fpm := b }

/-- `FLO <- b` (R172). -/
def setFlo (b : Byte) (s : State) : State := { s with flo := b }

/-- `FPOS <- p` (R170). -/
def setFpos (p : Fin 9) (s : State) : State := { s with fpos := p }

/-- The writes of FRAMEEND: `FPOS <- 0; FLO <- 0x00; CVALID <- 0; KIDX <- 16` (R176). -/
def endFrame (s : State) : State := { s with fpos := 0, flo := 0, cvalid := false, kidx := 16 }

/-- A frame was started and is shorter than its header: `FPOS != 0 and FPOS < CT_OFFSET` (R176). -/
def frameShort (s : State) : Bool := decide (s.fpos ≠ 0) && decide (s.fpos.val < Config.ctOffset)

/-- The effect of `RST` (70_reset_and_hazards.md R230, R231): every state element at its reset value and no response. The
parameter and the two streams are no state elements of the block and stay (DEDUCED, log entry 4). -/
def applyReset (s : State) : State :=
  { State.reset with ctrInc := s.ctrInc, inbox := s.inbox, outbox := s.outbox }

/-- The host events that are left, after the first was taken. -/
def setInbox (rest : List HostEvent) (s : State) : State := { s with inbox := rest }

end Sys2Proof.Machine
end

