-- ==== Sys2Proof/Machine/Control.lean ====
section
/-! DEFINITION. The control commands NOP and CLRERR (45_control.md). -/

namespace Sys2Proof.Machine

/-- NOP: a status poll; no state changes (R190). -/
def execNop (s : State) : Result := .next (accept s)

/-- CLRERR (R191). -/
def execClrerr (s : State) : Result := .next (accept (clearErrors s))

end Sys2Proof.Machine
end

