-- ==== Sys2Proof/Machine/Aes.lean ====
section
/-! DEFINITION. The AES-128 forward cipher core (42_aes_core.md R120 to R133). UNVERIFIED in the source (log entry 7): the
spec itself marks this file as general knowledge; the model follows its rules as written. -/

namespace Sys2Proof.Machine

/-- A four-byte round-key word (R125). -/
abbrev KeyWord := Vector Byte 4

/-- `xtime`: multiplication by x in GF(2^8) modulo `0x11B` (R123). -/
def xtime (a : Byte) : Byte :=
  let t : BitVec 9 := a.setWidth 9 <<< 1
  if t.getLsbD 8 then (t ^^^ 0x11B).setWidth 8 else t.setWidth 8

/-- The rounds of `gmul` from bit `i` of `b` on, `n` of them left, with running result `r` (R123). -/
def gmulRounds : Nat → Nat → Byte → Byte → Byte → Byte
  | 0, _, _, _, r => r
  | n + 1, i, a, b, r => gmulRounds n (i + 1) (xtime a) b (if b.getLsbD i then r ^^^ a else r)

/-- `gmul(a, b)`: multiplication in GF(2^8) (R123). -/
def gmul (a b : Byte) : Byte := gmulRounds 8 0 a b 0

/-- The S-box table of R124: one list per high nibble, in the order of the low nibble. -/
def sboxTable : List (List Byte) :=
   [[0x63, 0x7c, 0x77, 0x7b, 0xf2, 0x6b, 0x6f, 0xc5, 0x30, 0x01, 0x67, 0x2b, 0xfe, 0xd7, 0xab, 0x76],
    [0xca, 0x82, 0xc9, 0x7d, 0xfa, 0x59, 0x47, 0xf0, 0xad, 0xd4, 0xa2, 0xaf, 0x9c, 0xa4, 0x72, 0xc0],
    [0xb7, 0xfd, 0x93, 0x26, 0x36, 0x3f, 0xf7, 0xcc, 0x34, 0xa5, 0xe5, 0xf1, 0x71, 0xd8, 0x31, 0x15],
    [0x04, 0xc7, 0x23, 0xc3, 0x18, 0x96, 0x05, 0x9a, 0x07, 0x12, 0x80, 0xe2, 0xeb, 0x27, 0xb2, 0x75],
    [0x09, 0x83, 0x2c, 0x1a, 0x1b, 0x6e, 0x5a, 0xa0, 0x52, 0x3b, 0xd6, 0xb3, 0x29, 0xe3, 0x2f, 0x84],
    [0x53, 0xd1, 0x00, 0xed, 0x20, 0xfc, 0xb1, 0x5b, 0x6a, 0xcb, 0xbe, 0x39, 0x4a, 0x4c, 0x58, 0xcf],
    [0xd0, 0xef, 0xaa, 0xfb, 0x43, 0x4d, 0x33, 0x85, 0x45, 0xf9, 0x02, 0x7f, 0x50, 0x3c, 0x9f, 0xa8],
    [0x51, 0xa3, 0x40, 0x8f, 0x92, 0x9d, 0x38, 0xf5, 0xbc, 0xb6, 0xda, 0x21, 0x10, 0xff, 0xf3, 0xd2],
    [0xcd, 0x0c, 0x13, 0xec, 0x5f, 0x97, 0x44, 0x17, 0xc4, 0xa7, 0x7e, 0x3d, 0x64, 0x5d, 0x19, 0x73],
    [0x60, 0x81, 0x4f, 0xdc, 0x22, 0x2a, 0x90, 0x88, 0x46, 0xee, 0xb8, 0x14, 0xde, 0x5e, 0x0b, 0xdb],
    [0xe0, 0x32, 0x3a, 0x0a, 0x49, 0x06, 0x24, 0x5c, 0xc2, 0xd3, 0xac, 0x62, 0x91, 0x95, 0xe4, 0x79],
    [0xe7, 0xc8, 0x37, 0x6d, 0x8d, 0xd5, 0x4e, 0xa9, 0x6c, 0x56, 0xf4, 0xea, 0x65, 0x7a, 0xae, 0x08],
    [0xba, 0x78, 0x25, 0x2e, 0x1c, 0xa6, 0xb4, 0xc6, 0xe8, 0xdd, 0x74, 0x1f, 0x4b, 0xbd, 0x8b, 0x8a],
    [0x70, 0x3e, 0xb5, 0x66, 0x48, 0x03, 0xf6, 0x0e, 0x61, 0x35, 0x57, 0xb9, 0x86, 0xc1, 0x1d, 0x9e],
    [0xe1, 0xf8, 0x98, 0x11, 0x69, 0xd9, 0x8e, 0x94, 0x9b, 0x1e, 0x87, 0xe9, 0xce, 0x55, 0x28, 0xdf],
    [0x8c, 0xa1, 0x89, 0x0d, 0xbf, 0xe6, 0x42, 0x68, 0x41, 0x99, 0x2d, 0x0f, 0xb0, 0x54, 0xbb, 0x16]]

/-- The S-box `S` by its table (R124). -/
def sbox (a : Byte) : Byte := (sboxTable.getD (a.toNat / 16) []).getD (a.toNat % 16) 0

/-- The round constants `Rcon[1..10]` (R126); the value at 0 is used by no rule. -/
def rcon : Nat → Byte
  | 0 => 0
  | 1 => 0x01
  | n + 2 => xtime (rcon (n + 1))

/-- `RotWord`: (a0,a1,a2,a3) to (a1,a2,a3,a0) (R125). -/
def rotWord (t : KeyWord) : KeyWord := #v[t[1], t[2], t[3], t[0]]

/-- `SubWord`: the S-box on each byte (R125). -/
def subWord (t : KeyWord) : KeyWord := t.map sbox

/-- Bytewise XOR of two words (R125). -/
def xorWord (a b : KeyWord) : KeyWord := Vector.ofFn fun i => a[i] ^^^ b[i]

/-- The word of zeros, read where a list of words has no such entry; no rule reads there. -/
def zeroWord : KeyWord := Vector.replicate 4 0

/-- `w[j]` from the words before it, the newest first: `w[j-1]` is entry 0 and `w[j-4]` entry 3 (R125). -/
def nextKeyWord (j : Nat) (ws : List KeyWord) : KeyWord :=
  let t := ws.getD 0 zeroWord
  let t := if j % 4 = 0 then
      let u := subWord (rotWord t)
      u.set 0 (u[0] ^^^ rcon (j / 4))
    else t
  xorWord (ws.getD 3 zeroWord) t

/-- `KeyExpansion(K)`: the 44 words `w[0..43]` (R125). -/
def keyExpansion (k : Block) : List KeyWord :=
  ((List.range' 4 40).foldl (fun ws j => nextKeyWord j ws :: ws)
    [#v[k[12], k[13], k[14], k[15]], #v[k[8], k[9], k[10], k[11]],
     #v[k[4], k[5], k[6], k[7]], #v[k[0], k[1], k[2], k[3]]]).reverse

/-! The cipher's state is kept as the block it is loaded from: `s[r][c]` is byte `r + 4c` (R122). -/

/-- SubBytes (R127). -/
def subBytes (s : Block) : Block := s.map sbox

/-- ShiftRows: `s'[r][c] = s[r][(c + r) mod 4]` (R128). -/
def shiftRows (s : Block) : Block :=
  Vector.ofFn fun i => s[i.val % 4 + 4 * ((i.val / 4 + i.val % 4) % 4)]

/-- `gmul(a,3)`, computed as `xtime(a) ^ a` (R129). -/
def times3 (a : Byte) : Byte := xtime a ^^^ a

/-- One output byte of MixColumns, row `r`, from the four bytes of its column (R129, with `gmul(a,2) = xtime(a)`). -/
def mixByte (r : Nat) (a0 a1 a2 a3 : Byte) : Byte :=
  match r with
  | 0 => xtime a0 ^^^ times3 a1 ^^^ a2 ^^^ a3
  | 1 => a0 ^^^ xtime a1 ^^^ times3 a2 ^^^ a3
  | 2 => a0 ^^^ a1 ^^^ xtime a2 ^^^ times3 a3
  | _ => times3 a0 ^^^ a1 ^^^ a2 ^^^ xtime a3

/-- MixColumns on every column (R129). -/
def mixColumns (s : Block) : Block :=
  Vector.ofFn fun i =>
    mixByte (i.val % 4) s[4 * (i.val / 4)] s[4 * (i.val / 4) + 1] s[4 * (i.val / 4) + 2] s[4 * (i.val / 4) + 3]

/-- AddRoundKey(rnd): `s[r][c] ^ w[4rnd + c][r]` (R130). -/
def addRoundKey (w : List KeyWord) (rnd : Nat) (s : Block) : Block :=
  Vector.ofFn fun i => s[i] ^^^ (w.getD (4 * rnd + i.val / 4) zeroWord)[i.val % 4]

/-- Rounds 1 to 9: SubBytes, ShiftRows, MixColumns, AddRoundKey(rnd) (R131). -/
def aesRound (w : List KeyWord) (s : Block) (rnd : Nat) : Block :=
  addRoundKey w rnd (mixColumns (shiftRows (subBytes s)))

/-- `AES128(K, X)` (R131). The round keys are computed anew at every block, as R37 allows. Irreducible, so that a
proof about keystream does not run the cipher by accident; unfold it by name to use its rounds. -/
@[irreducible] def aes128 (k x : Block) : Block :=
  let w := keyExpansion k
  let s := (List.range' 1 9).foldl (aesRound w) (addRoundKey w 0 x)
  addRoundKey w 10 (shiftRows (subBytes s))

end Sys2Proof.Machine
end

