-- ==== Sys2Proof/Machine/Bytes.lean ====
section
/-! DEFINITION. Byte-array notation of 00_scope.md R9: `LE_16`, `BE_16`, `intLE`, `intBE`, `Reverse`. -/

namespace Sys2Proof.Machine

/-- `LE_16(x)`: byte `i` is `(x >> 8i) & 0xFF`. -/
def leBlock (x : Nat) : Block := Vector.ofFn fun i => BitVec.ofNat 8 (x >>> (8 * i.val))

/-- `BE_16(x)`: byte `i` is `(x >> 8(15-i)) & 0xFF`. -/
def beBlock (x : Nat) : Block := Vector.ofFn fun i => BitVec.ofNat 8 (x >>> (8 * (15 - i.val)))

/-- The value of a byte list, first byte least significant. -/
def natOfBytesLE : List Byte → Nat
  | [] => 0
  | b :: bs => b.toNat + 256 * natOfBytesLE bs

/-- `intLE(A)`, the inverse of `LE_16`. -/
def intLE (b : Block) : Nat := natOfBytesLE b.toList

/-- `intBE(A)`, the inverse of `BE_16`. -/
def intBE (b : Block) : Nat := natOfBytesLE b.toList.reverse

/-- `Reverse(A)`: byte `i` of the result is byte `15 - i` of `A`. -/
def reverseBlock (b : Block) : Block := Vector.ofFn fun i => b[15 - i.val]

end Sys2Proof.Machine
end

