-- ==== Sys2Proof/Machine/Nonce.lean ====
section
/-! DEFINITION. The nonce-expansion unit (41_nonce.md): NonceExpand, and the commands SEED and RDCTR. -/

namespace Sys2Proof.Machine

/-- `NonceExpand(v)`: `v` big-endian in the low two bytes of a block, then the whole block reversed end to end (R110). -/
def nonceExpand (v : Seed) : Block := reverseBlock (beBlock v.toNat)

/-- `CTR <- NonceExpand(v); KIDX <- 16; CVALID <- 1`: the effect SEED and the seed high byte of a frame share (R111, R173). -/
def loadSeed (v : Seed) (s : State) : State := { s with ctr := nonceExpand v, kidx := 16, cvalid := true }

/-- SEED (R111). -/
def execSeed (v : Seed) (s : State) : Result := .next (accept (loadSeed v s))

/-- RDCTR (R112). -/
def execRdctr (idx : BitVec 4) (s : State) : Result := .next (acceptData (readCtr idx s) s)

end Sys2Proof.Machine
end

