-- ==== Sys2Proof/Machine/Decrypt.lean ====
section
/-! DEFINITION. The counter increment, the keystream generator, XORB, and the decryption they implement (43_decrypt.md). -/

namespace Sys2Proof.Machine

/-- `Inc(c)` under the parameter `CTR_INC`, modulo 2^128 (R150). -/
def inc (m : CtrInc) (c : Block) : Block :=
  match m with
  | .le128 => leBlock (intLE c + 1)
  | .be128 => beBlock (intBE c + 1)

/-- A new keystream block: `KS <- AES128(KEY, CTR); CTR <- Inc(CTR); KIDX <- 0` (R151). -/
def generateBlock (s : State) : State :=
  { s with ks := aes128 s.key s.ctr, ctr := inc s.ctrInc s.ctr, kidx := 0 }

/-- `KIDX <- i + 1`, where byte `i` of the buffer is taken (R151). -/
def consume (i : Fin 16) (s : State) : State := { s with kidx := i.succ }

/-- Byte `i` of the buffered block, and the state after it is taken (R151). -/
def takeByte (i : Fin 16) (s : State) : Byte × State := (s.ks[i], consume i s)

/-- `KeystreamByte()`: the next keystream byte and the state after it; a new block is generated when the buffer is empty,
`KIDX = 16` (R151). -/
def keystreamByte (s : State) : Byte × State :=
  if h : s.kidx.val < 16 then takeByte ⟨s.kidx.val, h⟩ s else takeByte 0 (generateBlock s)

/-- One ciphertext byte, as XORB and a ciphertext FRAMEB decrypt it: NOKEY, then NOCTR, else the byte XOR the next keystream
byte (R152, 44_framer.md R175). A wrong key or seed is no error (R155). -/
def decryptByte (byte : Byte) (s : State) : State :=
  if s.klock = false then refuse .nokey s
  else if s.cvalid = false then refuse .noctr s
  else acceptData (byte ^^^ (keystreamByte s).1) (keystreamByte s).2

/-- XORB (R152). -/
def execXorb (byte : Byte) (s : State) : Result := .next (decryptByte byte s)

/-- Keystream block `b` of a seed: AES of the counter block advanced `b` times from `IV` (R153). -/
def keystreamBlock (m : CtrInc) (k : Block) (v : Seed) (b : Nat) : Block :=
  aes128 k (Nat.iterate (inc m) b (nonceExpand v))

/-- `Decrypt(K, v, C)` as a function: data byte `n` is XORed with byte `n mod 16` of keystream block `n div 16` (R153). -/
def decrypt (m : CtrInc) (k : Block) (v : Seed) (c : List Byte) : List Byte :=
  c.mapIdx fun n b => b ^^^ (keystreamBlock m k v (n / 16))[n % 16]

end Sys2Proof.Machine
end

