-- ==== Sys2Proof/Machine/Framer.lean ====
section
/-! DEFINITION. The frame front end: FRAMEB and FRAMEEND (44_framer.md). -/

namespace Sys2Proof.Machine

/-- "if p = 0 then FPM <- 0": a new frame starts (R170, R171). -/
def startFrame (s : State) : State := if s.fpos = 0 then setFpm false s else s

/-- The effect of a header byte by its position: the seed low byte (R172), the seed high byte (R173), the fingerprint
(R174), and none at positions 0 to 4 (R171). -/
def headerByte (byte : Byte) (s : State) : State :=
  if s.fpos.val = Config.seedOffset then setFlo byte s
  else if s.fpos.val = Config.seedOffset + 1 then loadSeed (seedOfBytes s.flo byte) s
  else if s.fpos.val = Config.fpOffset then setFpm (decide (byte ≠ s.key[0])) s
  else s

/-- FRAMEB (R170): a header byte while `FPOS < CT_OFFSET`, a ciphertext byte at `FPOS = CT_OFFSET` (R175). -/
def execFrameb (byte : Byte) (s : State) : Result :=
  if h : s.fpos.val < Config.ctOffset then
    .next (accept (setFpos ⟨s.fpos.val + 1, Nat.succ_lt_succ h⟩ (headerByte byte (startFrame s))))
  else .next (decryptByte byte s)

/-- FRAMEEND (R176): its writes persist when it is then refused with `SHORT`. -/
def execFrameend (s : State) : Result :=
  if frameShort s then .next (refuse .short (endFrame s)) else .next (accept (endFrame s))

end Sys2Proof.Machine
end

