-- ==== Sys2Proof/Machine/Key.lean ====
section
/-! DEFINITION. The key store commands KEYB and KEYLOCK (40_key.md). No command reads `KEY` (R102). -/

namespace Sys2Proof.Machine

/-- KEYB (R100). -/
def execKeyb (idx : BitVec 4) (byte : Byte) (s : State) : Result :=
  if s.klock then .next (refuse .keylocked s) else .next (accept (writeKey idx byte s))

/-- KEYLOCK (R101). -/
def execKeylock (s : State) : Result :=
  if s.klock then .next (refuse .keylocked s) else .next (accept (lockKey s))

end Sys2Proof.Machine
end

