-- ==== Sys2Proof/Machine/Dispatch.lean ====
section
/-! DEFINITION. The meaning of each command: one arm per constructor. -/

namespace Sys2Proof.Machine

/-- Performs one decoded command. -/
def exec (i : Instr) (s : State) : Host.Outcome State Fault Refusal :=
  match i with
  | .nop => Sys2Proof.Machine.execNop s
  | .keyb idx byte => Sys2Proof.Machine.execKeyb idx byte s
  | .keylock => Sys2Proof.Machine.execKeylock s
  | .seed v => Sys2Proof.Machine.execSeed v s
  | .xorb byte => Sys2Proof.Machine.execXorb byte s
  | .frameb byte => Sys2Proof.Machine.execFrameb byte s
  | .frameend => Sys2Proof.Machine.execFrameend s
  | .rdctr idx => Sys2Proof.Machine.execRdctr idx s
  | .clrerr => Sys2Proof.Machine.execClrerr s

end Sys2Proof.Machine
end

