-- ==== Sys2Proof/Machine/Perform.lean ====
section
/-! DEFINITION. One host event performed on the block: a command word is decoded, then executed or refused `ILLEGAL`
(30_encoding.md R75 to R77), and `RST` resets the block (70_reset_and_hazards.md R230). -/

namespace Sys2Proof.Machine

/-- The command word `w` performed: `ILLEGAL` is checked at decode, before anything else (R202). -/
def performWord (w : Word) (s : State) : Result :=
  match decode w with
  | .instr i => exec i s
  | .illegal _ => .next (refuse .illegal s)

/-- One host event performed. -/
def performEvent (e : HostEvent) (s : State) : Result :=
  match e with
  | .cmd w => performWord w s
  | .rst => .next (applyReset s)

end Sys2Proof.Machine
end

