-- ==== Sys2Proof/Machine/Step.lean ====
section
/-! DEFINITION. One step of the machine: the next host event is taken and performed (10_state.md R20, R21). -/

namespace Sys2Proof.Machine

/-- One step. With no event pending the run has ended and the state stays: "Every state is a final state, because the block
never waits" (70_reset_and_hazards.md R234; DESIGN CHOICE, log entry 2). -/
def step (s : State) : Host.Outcome State Fault Refusal :=
  match s.inbox with
  | [] => .next s
  | e :: rest => performEvent e (setInbox rest s)

/-- `s` with the command word whose `nbits` low bits are those of `w`, its other bits 0, presented as the next host event.
CTRDEC fetches nothing (R23): this stands for the host's delivery of a word on `CMD` (log entry 2). -/
def State.withFetchWord (s : State) (nbits w : Nat) : State :=
  setInbox (.cmd (BitVec.ofNat 32 (w % 2 ^ nbits)) :: s.inbox) s

end Sys2Proof.Machine
end

