-- ==== Sys2Proof/WellFormed.lean ====
section
/-! DEFINITION. Well-formedness. A decoded command (`Instr`) is well-formed by its type: "Every value of each field is legal,
so no operand value can itself be illegal" (30_encoding.md R73). What can be ill-formed is a line of assembly, whose operands
are numbers of any size (R79, R80): here stand those lines and the check an assembler makes of them. -/

namespace Sys2Proof

/-- A line of assembly after parsing: a mnemonic of R79 or a pseudo-instruction of R80, with its numbers as written. -/
inductive Asm where
  | nop
  | keyb (idx byte : Nat)
  | keylock
  | seed (v : Nat)
  | xorb (byte : Nat)
  | frameb (byte : Nat)
  | frameend
  | rdctr (idx : Nat)
  | clrerr
  /-- Pseudo-instruction `STAT`. -/
  | stat
  /-- Pseudo-instruction `LOADKEY k0, ..., k15`. -/
  | loadkey (bytes : List Nat)
  /-- Pseudo-instruction `DECRYPT v, c0, ..., c(n-1)`. -/
  | decrypt (v : Nat) (bytes : List Nat)
  /-- Pseudo-instruction `FRAME s0, ..., s(L-1)`. -/
  | frame (bytes : List Nat)
  /-- Pseudo-instruction `READIV`. -/
  | readiv
deriving DecidableEq, Repr

/-- "idx > 15" is out of range (R79). -/
def idxInRange (n : Nat) : Bool := decide (n ≤ 15)

/-- "byte > 0xFF" is out of range (R79). -/
def byteInRange (n : Nat) : Bool := decide (n ≤ 0xFF)

/-- "v > 0xFFFF" is out of range (R79). -/
def seedInRange (n : Nat) : Bool := decide (n ≤ 0xFFFF)

/-- The check an assembler makes of a line: every operand in range (R79), and sixteen bytes for `LOADKEY` (R80). -/
def Asm.wellFormed : Asm → Bool
  | .nop => true
  | .keyb idx byte => idxInRange idx && byteInRange byte
  | .keylock => true
  | .seed v => seedInRange v
  | .xorb byte => byteInRange byte
  | .frameb byte => byteInRange byte
  | .frameend => true
  | .rdctr idx => idxInRange idx
  | .clrerr => true
  | .stat => true
  | .loadkey bytes => decide (bytes.length = 16) && bytes.all byteInRange
  | .decrypt v bytes => seedInRange v && bytes.all byteInRange
  | .frame bytes => bytes.all byteInRange
  | .readiv => true

end Sys2Proof
end

