-- ==== Sys2Proof/Machine/Assembler.lean ====
section
/-! DEFINITION. The assembler of 30_encoding.md R79 and the pseudo-instructions of R80. The block never sees a line of
assembly, only the words of its expansion. Text is a list of characters. -/

namespace Sys2Proof.Machine

/-- Why an assembler rejects a line (R79). -/
inductive AsmError where
  /-- The mnemonic is none of R79 or R80. -/
  | unknownMnemonic
  /-- An operand is not a hexadecimal number with a `0x` prefix. -/
  | badNumber
  /-- The number of operands is not that of the mnemonic. -/
  | badOperandCount
  /-- "idx > 15, byte > 0xFF, v > 0xFFFF": rejected, never truncated. -/
  | outOfRange
deriving DecidableEq, Repr

/-- FRAMEB for each byte (R80, `FRAME`). -/
def framebEach (bytes : List Nat) : List Instr := bytes.map fun b => .frameb (BitVec.ofNat 8 b)

/-- The commands a line stands for (R79; R80 for a pseudo-instruction), its numbers taken at their field's width. -/
def expand : Asm → List Instr
  | .nop => [.nop]
  | .keyb idx byte => [.keyb (BitVec.ofNat 4 idx) (BitVec.ofNat 8 byte)]
  | .keylock => [.keylock]
  | .seed v => [.seed (BitVec.ofNat 16 v)]
  | .xorb byte => [.xorb (BitVec.ofNat 8 byte)]
  | .frameb byte => [.frameb (BitVec.ofNat 8 byte)]
  | .frameend => [.frameend]
  | .rdctr idx => [.rdctr (BitVec.ofNat 4 idx)]
  | .clrerr => [.clrerr]
  | .stat => [.nop]
  | .loadkey bytes => (bytes.mapIdx fun i b => .keyb (BitVec.ofNat 4 i) (BitVec.ofNat 8 b)) ++ [.keylock]
  | .decrypt v bytes => .seed (BitVec.ofNat 16 v) :: bytes.map fun b => .xorb (BitVec.ofNat 8 b)
  | .frame bytes => framebEach bytes ++ [.frameend]
  | .readiv => (List.range 16).map fun i => .rdctr (BitVec.ofNat 4 i)

/-- The words of a parsed line, or its rejection: an operand out of range is never truncated (R79). -/
def assembleLine (a : Asm) : Except AsmError (List Word) :=
  if a.wellFormed then .ok ((expand a).map encode) else .error .outOfRange

/-! The text of a line: mnemonic, operands separated by commas, a comment after `;` (R79). -/

/-- Blanks between the parts of a line (DESIGN CHOICE, log entry 8). -/
def isBlank (c : Char) : Bool := c = ' ' || c = '\t'

/-- A text without its leading and trailing blanks. -/
def trimBlanks (t : List Char) : List Char := ((t.dropWhile isBlank).reverse.dropWhile isBlank).reverse

/-- The value of a hexadecimal digit, in either case (DESIGN CHOICE, log entry 8). -/
def hexDigit (c : Char) : Option Nat :=
  if '0' ≤ c ∧ c ≤ '9' then some (c.toNat - '0'.toNat)
  else if 'a' ≤ c ∧ c ≤ 'f' then some (c.toNat - 'a'.toNat + 10)
  else if 'A' ≤ c ∧ c ≤ 'F' then some (c.toNat - 'A'.toNat + 10)
  else none

/-- The value of hexadecimal digits after those already read, whose value is `acc`. -/
def hexValue (acc : Nat) : List Char → Option Nat
  | [] => some acc
  | c :: cs =>
    match hexDigit c with
    | some d => hexValue (16 * acc + d) cs
    | none => none

/-- "numbers are hexadecimal with a `0x` prefix" (R79). -/
def parseNumber (t : List Char) : Except AsmError Nat :=
  match t with
  | '0' :: 'x' :: d :: ds =>
    match hexValue 0 (d :: ds) with
    | some n => .ok n
    | none => .error .badNumber
  | _ => .error .badNumber

/-- The operands of a line, separated by commas (R79). -/
def parseOperands (t : List Char) : Except AsmError (List Nat) :=
  if trimBlanks t = [] then .ok [] else (t.splitOn ',').mapM fun u => parseNumber (trimBlanks u)

/-- The line a mnemonic and its operands make (R79, R80). -/
def makeLine (mnemonic : List Char) (ops : List Nat) : Except AsmError Asm :=
  if mnemonic = "DECRYPT".toList then
    match ops with
    | v :: bytes => .ok (.decrypt v bytes)
    | [] => .error .badOperandCount
  else if mnemonic = "FRAME".toList then .ok (.frame ops)
  else if mnemonic = "LOADKEY".toList then
    if ops.length = 16 then .ok (.loadkey ops) else .error .badOperandCount
  else if mnemonic = "KEYB".toList then
    match ops with
    | [idx, byte] => .ok (.keyb idx byte)
    | _ => .error .badOperandCount
  else if mnemonic = "SEED".toList then
    match ops with
    | [v] => .ok (.seed v)
    | _ => .error .badOperandCount
  else if mnemonic = "XORB".toList then
    match ops with
    | [byte] => .ok (.xorb byte)
    | _ => .error .badOperandCount
  else if mnemonic = "FRAMEB".toList then
    match ops with
    | [byte] => .ok (.frameb byte)
    | _ => .error .badOperandCount
  else if mnemonic = "RDCTR".toList then
    match ops with
    | [idx] => .ok (.rdctr idx)
    | _ => .error .badOperandCount
  else
    match plainLine mnemonic, ops with
    | some a, [] => .ok a
    | some _, _ => .error .badOperandCount
    | none, _ => .error .unknownMnemonic
where
  /-- The mnemonics without operands. -/
  plainLine (m : List Char) : Option Asm :=
    if m = "NOP".toList then some .nop
    else if m = "KEYLOCK".toList then some .keylock
    else if m = "FRAMEEND".toList then some .frameend
    else if m = "CLRERR".toList then some .clrerr
    else if m = "STAT".toList then some .stat
    else if m = "READIV".toList then some .readiv
    else none

/-- A line of text: none where it holds only blanks and a comment (R79). -/
def parseLine (line : List Char) : Except AsmError (Option Asm) :=
  let t := trimBlanks (line.takeWhile fun c => c ≠ ';')
  if t = [] then .ok none
  else do
    let ops ← parseOperands (t.dropWhile fun c => !isBlank c)
    let a ← makeLine (t.takeWhile fun c => !isBlank c) ops
    return some a

/-- A program, one command per line (R79): its words, or the first rejection. -/
def assemble : List (List Char) → Except AsmError (List Word)
  | [] => .ok []
  | line :: lines => do
    let ws ← match ← parseLine line with
      | some a => assembleLine a
      | none => .ok []
    let rest ← assemble lines
    return ws ++ rest

end Sys2Proof.Machine
end

