-- ==== Sys2Proof/Safety.lean ====
section
/-! DEFINITION. The terms in which claims about CTRDEC are stated: the launch premises of 70_reset_and_hazards.md R235, the
invariants of the machine, runs, and what a command does with the keystream. -/

namespace Sys2Proof.Safety

open Sys2Proof.Machine

/-- `Clean`: all `E_*` bits 0 and `LCAUSE = 0` (R235). -/
def Clean (s : State) : Prop :=
  s.eIll = false ∧ s.eNokey = false ∧ s.eNoctr = false ∧ s.eKlock = false ∧ s.eShort = false ∧ s.lcause = 0

/-- `Idle`: `FPOS = 0`, `FLO = 0x00`, `CVALID = 0` and `KIDX = 16` (R235). -/
def Idle (s : State) : Prop := s.fpos = 0 ∧ s.flo = 0 ∧ s.cvalid = false ∧ s.kidx = 16

/-- `Keyed(K)`: `KLOCK = 1` and `KEY = K` (R235). -/
def Keyed (k : Block) (s : State) : Prop := s.klock = true ∧ s.key = k

/-- The keystream buffer is coherent (20_memory.md R62, 10_state.md R28): while a byte is buffered, the key is locked, the
counter is valid, `KS` is the encryption of a counter block whose increment `CTR` now holds, and `KIDX` is not 0. -/
def KeystreamCoherent (s : State) : Prop :=
  s.kidx ≠ 0 ∧
    (s.kidx ≠ 16 → s.klock = true ∧ s.cvalid = true ∧
      ∃ c : Block, s.ks = aes128 s.key c ∧ s.ctr = inc s.ctrInc c)

/-- While `KLOCK = 0` no keystream was generated: `KS` is as reset left it and nothing is buffered (R25). -/
def NoKeystreamWhileUnlocked (s : State) : Prop := s.klock = false → s.ks = Block.zero ∧ s.kidx = 16

/-- A frame past its seed bytes has a counter, and `FLO` holds a byte only inside a frame past position 5 (44_framer.md R170,
R172, R176). -/
def FrameCoherent (s : State) : Prop :=
  (7 ≤ s.fpos.val → s.cvalid = true) ∧ (s.fpos.val ≤ 5 → s.flo = 0)

/-- The sticky bit that belongs to a cause code (60_exceptions.md R200). -/
def stickyOf (s : State) : Cause → Bool
  | .illegal => s.eIll
  | .nokey => s.eNokey
  | .noctr => s.eNoctr
  | .keylocked => s.eKlock
  | .short => s.eShort

/-- The error record is coherent (R35, R36, R207): `LCAUSE` is 0 with no sticky bit set, or the code of a cause whose sticky
bit is set; codes 6 and 7 are never held. -/
def ErrorRecordCoherent (s : State) : Prop :=
  Clean s ∨ ∃ c : Cause, s.lcause = causeCode c ∧ stickyOf s c = true

/-- `n` steps of the machine. -/
abbrev run (n : Nat) (s : State) : Result := Sys2Proof.core.run n s

/-- The host events that issue these commands in order. -/
def issue (is : List Instr) : List HostEvent := is.map fun i => .cmd (encode i)

/-- The response was an accepted command's without a data byte. -/
def acceptedPlain (r : Word) : Prop := respAcc r = true ∧ respDv r = false

/-- The response was an accepted command's with a data byte. -/
def acceptedData (r : Word) : Prop := respAcc r = true ∧ respDv r = true

/-- Performing the word `w` in `s` takes a keystream byte: an XORB or a ciphertext FRAMEB with the key locked and the counter
valid (43_decrypt.md R152, R175). -/
def TakesKeystream (w : Word) (s : State) : Prop :=
  s.klock = true ∧ s.cvalid = true ∧
    ∃ b : Byte, decode w = .instr (.xorb b) ∨ (decode w = .instr (.frameb b) ∧ s.fpos.val = 8)

end Sys2Proof.Safety
end

