-- ==== Sys2Proof/Certificates/Slice0/Obligations.lean ====
section
/-! DEFINITION. The statements about CTRDEC for the provers. Each docstring names the rule of spec/ it formalises. A next
state is written as the old state with the changed fields, so a statement of a command's result is its frame too: every other
field keeps its value. CTRDEC has no program counter, general register or memory (10_state.md R22, R23, 20_memory.md R50). -/

open Sys2Proof Sys2Proof.Machine Sys2Proof.Safety

/-! ## Encoding -/

/-- Decoding the word of a command gives the command back, with every operand value (R72, R74, R77, R79). -/
def Obligations.DecodeOfEncodeIsTheCommand : Prop :=
  ∀ i : Instr, decode (encode i) = .instr i

/-- A legal word is the encoding of the command it decodes to: no two words decode to one command (R72, R74, R77). -/
def Obligations.LegalWordIsTheEncodingOfItsCommand : Prop :=
  ∀ (w : Word) (i : Instr), decode w = .instr i → encode i = w

/-- R74: "A word is the command in the row if and only if `cmd & mask = match`", row by row. -/
def Obligations.WordIsTheRowsCommandIffMaskMatches : Prop :=
  ∀ w : Word,
    (decode w = .instr .nop ↔ w &&& 0xFFFFFFFF = 0x00000000) ∧
    ((∃ idx byte, decode w = .instr (.keyb idx byte)) ↔ w &&& 0xFFF0FF00 = 0x10000000) ∧
    (decode w = .instr .keylock ↔ w &&& 0xFFFFFFFF = 0x20000000) ∧
    ((∃ v, decode w = .instr (.seed v)) ↔ w &&& 0xFFFF0000 = 0x30000000) ∧
    ((∃ byte, decode w = .instr (.xorb byte)) ↔ w &&& 0xFFFFFF00 = 0x40000000) ∧
    ((∃ byte, decode w = .instr (.frameb byte)) ↔ w &&& 0xFFFFFF00 = 0x50000000) ∧
    (decode w = .instr .frameend ↔ w &&& 0xFFFFFFFF = 0x60000000) ∧
    ((∃ idx, decode w = .instr (.rdctr idx)) ↔ w &&& 0xFFFFFFF0 = 0x70000000) ∧
    (decode w = .instr .clrerr ↔ w &&& 0xFFFFFFFF = 0x80000000) ∧
    (9 ≤ (w.extractLsb' 28 4).toNat → ∃ why, decode w = .illegal why)

/-- R77: "Exactly ... 70,164 of the 2^32 words are legal". -/
def Obligations.LegalWordsNumber70164 : Prop :=
  Nat.card { w : Word // ∃ i, decode w = .instr i } = 70164

/-- Words written out from R72 and R74, and the commands they stand for (95_test_vectors.md V-E, V-K, V-S, V-X, V-F, V-R). -/
def Obligations.WrittenOutWordsDecodeAsTheSpecSays : Prop :=
  decode 0x00000000 = .instr .nop ∧ decode 0x100F002B = .instr (.keyb 0xF 0x2B) ∧
  decode 0x20000000 = .instr .keylock ∧ decode 0x30001234 = .instr (.seed 0x1234) ∧
  decode 0x400000FA = .instr (.xorb 0xFA) ∧ decode 0x50000010 = .instr (.frameb 0x10) ∧
  decode 0x60000000 = .instr .frameend ∧ decode 0x7000000F = .instr (.rdctr 0xF) ∧
  decode 0x80000000 = .instr .clrerr ∧ decode 0x10100100 = .illegal .mustBeZero ∧
  decode 0x90000000 = .illegal .reservedOpcode

/-- R75: an assigned opcode with a must-be-zero bit set is refused `ILLEGAL` and changes only the error record. -/
def Obligations.MustBeZeroBitSetIsRefusedIllegal : Prop :=
  (∀ (w : Word) (s : State),
    ((w.extractLsb' 28 4 ∈ [0x0#4, 0x2#4, 0x6#4, 0x8#4] ∧ w &&& 0x0FFFFFFF ≠ 0) ∨
     (w.extractLsb' 28 4 = 0x1#4 ∧ w &&& 0x0FF0FF00 ≠ 0) ∨
     (w.extractLsb' 28 4 = 0x3#4 ∧ w &&& 0x0FFF0000 ≠ 0) ∨
     (w.extractLsb' 28 4 ∈ [0x4#4, 0x5#4] ∧ w &&& 0x0FFFFF00 ≠ 0) ∨
     (w.extractLsb' 28 4 = 0x7#4 ∧ w &&& 0x0FFFFFF0 ≠ 0)) →
    let t := { s with eIll := true, lcause := 1 }
    performWord w s = .next { t with outbox := s.outbox ++ [respWord false false 0 (status t)] }) ∧
  decode 0x00000001 = .illegal .mustBeZero ∧ decode 0x10100100 = .illegal .mustBeZero

/-- R76: every word with `OP` in 0x9..0xF is refused `ILLEGAL` as R75 says, and NOP has no alias: its one word is 0. -/
def Obligations.ReservedOpcodeIsRefusedIllegal : Prop :=
  (∀ (w : Word) (s : State), 9 ≤ (w.extractLsb' 28 4).toNat →
    let t := { s with eIll := true, lcause := 1 }
    performWord w s = .next { t with outbox := s.outbox ++ [respWord false false 0 (status t)] }) ∧
  ∀ w : Word, decode w = .instr .nop → w = 0

/-- R79, mnemonic by mnemonic: a line with every operand in range (`idx <= 15`, `byte <= 0xFF`, `v <= 0xFFFF`) becomes the
word of its row, its operands whole, and a line with any operand out of range is rejected. -/
def Obligations.AssemblerRejectsAndNeverTruncates : Prop :=
  assembleLine .nop = .ok [0x00000000] ∧
  (∀ idx byte : Nat, assembleLine (.keyb idx byte) =
    if idx ≤ 15 ∧ byte ≤ 0xFF then .ok [0x10000000 ||| BitVec.ofNat 32 idx <<< 16 ||| BitVec.ofNat 32 byte]
    else .error .outOfRange) ∧
  assembleLine .keylock = .ok [0x20000000] ∧
  (∀ v : Nat, assembleLine (.seed v) =
    if v ≤ 0xFFFF then .ok [0x30000000 ||| BitVec.ofNat 32 v] else .error .outOfRange) ∧
  (∀ byte : Nat, assembleLine (.xorb byte) =
    if byte ≤ 0xFF then .ok [0x40000000 ||| BitVec.ofNat 32 byte] else .error .outOfRange) ∧
  (∀ byte : Nat, assembleLine (.frameb byte) =
    if byte ≤ 0xFF then .ok [0x50000000 ||| BitVec.ofNat 32 byte] else .error .outOfRange) ∧
  assembleLine .frameend = .ok [0x60000000] ∧
  (∀ idx : Nat, assembleLine (.rdctr idx) =
    if idx ≤ 15 then .ok [0x70000000 ||| BitVec.ofNat 32 idx] else .error .outOfRange) ∧
  assembleLine .clrerr = .ok [0x80000000]

/-- R80 with the ranges of R79: each pseudo-instruction becomes the words of its expansion in order, and is rejected with an
operand out of range. That a LOADKEY of another number of bytes than sixteen is rejected is log entry 8. The words of every
line decode to the commands it stands for. -/
def Obligations.PseudoInstructionsBecomeTheirExpansions : Prop :=
  assembleLine .stat = .ok [0x00000000] ∧
  (∀ bytes : List Nat, assembleLine (.loadkey bytes) =
    if bytes.length = 16 ∧ ∀ b ∈ bytes, b ≤ 0xFF then
      .ok ((bytes.mapIdx fun i b => 0x10000000 ||| BitVec.ofNat 32 i <<< 16 ||| BitVec.ofNat 32 b) ++ [0x20000000])
    else .error .outOfRange) ∧
  (∀ (v : Nat) (bytes : List Nat), assembleLine (.decrypt v bytes) =
    if v ≤ 0xFFFF ∧ ∀ b ∈ bytes, b ≤ 0xFF then
      .ok ((0x30000000 ||| BitVec.ofNat 32 v) :: bytes.map fun b => 0x40000000 ||| BitVec.ofNat 32 b)
    else .error .outOfRange) ∧
  (∀ bytes : List Nat, assembleLine (.frame bytes) =
    if ∀ b ∈ bytes, b ≤ 0xFF then
      .ok ((bytes.map fun b => 0x50000000 ||| BitVec.ofNat 32 b) ++ [0x60000000])
    else .error .outOfRange) ∧
  assembleLine .readiv = .ok [0x70000000, 0x70000001, 0x70000002, 0x70000003, 0x70000004, 0x70000005, 0x70000006,
    0x70000007, 0x70000008, 0x70000009, 0x7000000A, 0x7000000B, 0x7000000C, 0x7000000D, 0x7000000E, 0x7000000F] ∧
  ∀ (a : Asm) (ws : List Word), assembleLine a = .ok ws → ws.map decode = (expand a).map Decoded.instr

/-! ## The step, the response and reset -/

/-- A step with a command word next, whose word decodes to `i`, is `exec i` on the state with that event taken; a word that
decodes to no command is refused `ILLEGAL`, which does not stop the machine (R20, R21, R75, R201). The queue of host events
is the model's form of `CMD` (log entry 2). -/
def Obligations.StepRunsTheDecodedCommand : Prop :=
  ∀ (s : State) (w : Word) (rest : List HostEvent), s.inbox = .cmd w :: rest →
    (∀ i : Instr, decode w = .instr i → step s = exec i { s with inbox := rest }) ∧
    (∀ why : IllegalWord, decode w = .illegal why →
      let t := { s with inbox := rest, eIll := true, lcause := 1 }
      step s = .next { t with outbox := s.outbox ++ [respWord false false 0 (status t)] })

/-- Reset returns no response and keeps the parameter and the host's remaining events (R230; that these three are model
fields outside the block is log entries 1, 2 and 4). -/
def Obligations.ResetReturnsNoResponse : Prop :=
  ∀ (s : State) (rest : List HostEvent), s.inbox = .rst :: rest →
    step s = .next { State.reset with ctrInc := s.ctrInc, inbox := rest, outbox := s.outbox }

/-- R231: the value of every state element after `RST`, STATUS after it, the NOP after it, power-on equal to it (up to the
model's own fields `ctrInc`, `inbox` and `outbox`, which are no state elements), and that no other event clears `KLOCK`. -/
def Obligations.ResetSetsEveryStateElement : Prop :=
  (∀ s : State,
    ∃ t, performEvent .rst s = .next t ∧ t.key = Vector.replicate 16 0 ∧ t.klock = false ∧ t.ctr = Vector.replicate 16 0 ∧
      t.cvalid = false ∧ t.ks = Vector.replicate 16 0 ∧ t.kidx.val = 16 ∧ t.fpos.val = 0 ∧ t.flo = 0 ∧ t.fpm = false ∧
      t.eIll = false ∧ t.eNokey = false ∧ t.eNoctr = false ∧ t.eKlock = false ∧ t.eShort = false ∧ t.lcause = 0 ∧
      status t = 0x0010 ∧
      (∀ u, exec .nop t = .next u → u.outbox = t.outbox ++ [0x00100200]) ∧
      t = { State.reset with ctrInc := t.ctrInc, inbox := t.inbox, outbox := t.outbox }) ∧
  (∀ (e : HostEvent) (s t : State), performEvent e s = .next t → s.klock = true → t.klock = false → e = .rst)

/-- No step stops: from every state a step answers a next state, having taken at most one event; with no event pending the
run has ended and the state stays (R201, R234; the event queue is log entry 2). -/
def Obligations.EveryStepAnswersANextState : Prop :=
  ∀ s : State, ∃ t, step s = .next t ∧ t.inbox = s.inbox.tail ∧ (s.inbox = [] → t = s)

/-- R21, R33, R58: every command word gets exactly one response; its STATUS field is the STATUS of the state after the
command, bits 15:10 are 0, `DATA` is 0x00 when `DV = 0`, and a refused command has `DV = 0`.
(The event queue is log entry 2.) -/
def Obligations.EveryCommandWordGetsOneResponse : Prop :=
  ∀ (s : State) (w : Word) (rest : List HostEvent), s.inbox = .cmd w :: rest →
    ∃ t r, step s = .next t ∧ t.outbox = s.outbox ++ [r] ∧ respStatus r = status t ∧ r.extractLsb' 10 6 = 0 ∧
      (respDv r = false → respData r = 0) ∧ (respAcc r = false → respDv r = false)

/-- R33: the fields of a response word. -/
def Obligations.ResponseWordHoldsItsFields : Prop :=
  ∀ (acc dv : Bool) (data : Byte) (st : BitVec 16),
    (respWord acc dv data st).extractLsb' 0 8 = data ∧ (respWord acc dv data st).getLsbD 8 = dv ∧
    (respWord acc dv data st).getLsbD 9 = acc ∧ (respWord acc dv data st).extractLsb' 10 6 = 0 ∧
    (respWord acc dv data st).extractLsb' 16 16 = st

/-- R34: the bits of STATUS, and STATUS after reset. -/
def Obligations.StatusWordHoldsItsFields : Prop :=
  (∀ s : State,
    (status s).getLsbD 0 = s.klock ∧ (status s).getLsbD 1 = s.cvalid ∧
    ((status s).getLsbD 2 = true ↔ s.fpos.val ≠ 0) ∧ (status s).getLsbD 3 = s.fpm ∧
    ((status s).getLsbD 4 = true ↔ s.kidx.val = 16) ∧ (status s).extractLsb' 5 3 = 0 ∧
    (status s).getLsbD 8 = s.eIll ∧ (status s).getLsbD 9 = s.eNokey ∧ (status s).getLsbD 10 = s.eNoctr ∧
    (status s).getLsbD 11 = s.eKlock ∧ (status s).getLsbD 12 = s.eShort ∧ (status s).extractLsb' 13 3 = s.lcause) ∧
  status State.reset = 0x0010

/-! ## Key store -/

/-- R100, `KLOCK = 0`: KEYB writes the one key byte. -/
def Obligations.KeybWritesItsByteWhileUnlocked : Prop :=
  ∀ (idx : BitVec 4) (byte : Byte) (s : State), s.klock = false →
    exec (.keyb idx byte) s =
      .next { s with key := s.key.set idx.toNat byte, outbox := s.outbox ++ [respWord true false 0 (status s)] }

/-- R101, `KLOCK = 0`: KEYLOCK sets `KLOCK` and nothing else. -/
def Obligations.KeylockSetsTheLock : Prop :=
  ∀ s : State, s.klock = false →
    let t := { s with klock := true }
    exec .keylock s = .next { t with outbox := s.outbox ++ [respWord true false 0 (status t)] }

/-- R100, R101, `KLOCK = 1`: KEYB and KEYLOCK are refused `KEYLOCKED` and write no key byte. -/
def Obligations.LockedKeyCommandsAreRefused : Prop :=
  ∀ (idx : BitVec 4) (byte : Byte) (s : State), s.klock = true →
    let t := { s with eKlock := true, lcause := 4 }
    let u := { t with outbox := s.outbox ++ [respWord false false 0 (status t)] }
    exec (.keyb idx byte) s = .next u ∧ exec .keylock s = .next u

/-- Once locked, the key and the lock stay through any run without a reset (R25, R101, R103; the event queue is log
entry 2). -/
def Obligations.LockedKeyStaysUntilReset : Prop :=
  ∀ (n : Nat) (s t : State), s.klock = true → (∀ e ∈ s.inbox, e ≠ .rst) → run n s = .next t →
    t.key = s.key ∧ t.klock = true

/-- R80, R232: the seventeen commands of LOADKEY, from any unlocked state, leave `Keyed(K)`, every one accepted. (The
event queue is log entry 2.) -/
def Obligations.LoadKeyLeavesTheKeyLocked : Prop :=
  ∀ (s : State) (k : Block) (rest : List HostEvent), s.klock = false →
    s.inbox = issue (expand (.loadkey (k.toList.map BitVec.toNat))) ++ rest →
    ∃ t rs, run 17 s = .next t ∧ Keyed k t ∧ t.inbox = rest ∧ t.outbox = s.outbox ++ rs ∧ rs.length = 17 ∧
      (∀ r ∈ rs, acceptedPlain r) ∧ t.ctr = s.ctr ∧ t.cvalid = s.cvalid ∧ t.ks = s.ks ∧ t.kidx = s.kidx

/-- R24, R102: the key shows only through keystream bytes and through `FPM`. Take two states that differ in the key alone.
An event that takes no keystream byte is answered alike, and leaves states that differ in the key alone; only for a FRAMEB at
position 7 does this need that its byte tells the same about both first key bytes. Without that, this FRAMEB leaves states that
differ in the key and `FPM` alone, and its responses differ in STATUS alone. A command that takes a keystream byte leaves
states that differ in the key and `KS` alone, with responses that differ in `DATA` alone; and not even in these, where the byte
was buffered already or the two keys encrypt the counter block alike. -/
def Obligations.KeyShowsOnlyThroughKeystreamAndFingerprint : Prop :=
  ∀ (s : State) (k : Block),
    (∀ e : HostEvent, (∀ w, e = .cmd w → ¬ TakesKeystream w s) →
      (∀ w b, e = .cmd w → decode w = .instr (.frameb b) → s.fpos.val = 7 → (b = k[0] ↔ b = s.key[0])) →
      ∃ t k', performEvent e s = .next t ∧ performEvent e { s with key := k } = .next { t with key := k' }) ∧
    (∀ b : Byte, s.fpos.val = 7 →
      ∃ t u, exec (.frameb b) s = .next t ∧ exec (.frameb b) { s with key := k } = .next u ∧
        u = { t with key := k, fpm := decide (b ≠ k[0]), outbox := u.outbox } ∧
        t.outbox = s.outbox ++ [respWord true false 0 (status t)] ∧
        u.outbox = s.outbox ++ [respWord true false 0 (status u)]) ∧
    (∀ w : Word, TakesKeystream w s →
      ∃ t u r q, performWord w s = .next t ∧ performWord w { s with key := k } = .next u ∧
        u = { t with key := k, ks := u.ks, outbox := u.outbox } ∧
        t.outbox = s.outbox ++ [r] ∧ u.outbox = s.outbox ++ [q] ∧ r.extractLsb' 8 24 = q.extractLsb' 8 24 ∧
        (s.kidx.val < 16 ∨ aes128 k s.ctr = aes128 s.key s.ctr → u = { t with key := k }))

/-! ## Nonce expansion -/

/-- R110: the two steps of NonceExpand byte by byte, and `IV = LE_16(v)`. -/
def Obligations.NonceExpandReversesTheBigEndianBlock : Prop :=
  ∀ v : Seed,
    (beBlock v.toNat)[14] = v.extractLsb' 8 8 ∧ (beBlock v.toNat)[15] = v.extractLsb' 0 8 ∧
    (∀ (i : Nat) (h : i < 14), (beBlock v.toNat)[i] = 0) ∧
    (∀ (i : Nat) (h : i < 16), (nonceExpand v)[i] = (beBlock v.toNat)[15 - i]) ∧
    nonceExpand v = leBlock v.toNat

/-- R113: NonceExpand is injective, and no initial counter block has a nonzero byte outside bytes 0 and 1. -/
def Obligations.NonceExpandIsInjective : Prop :=
  (∀ v w : Seed, nonceExpand v = nonceExpand w → v = w) ∧
  ∀ (v : Seed) (i : Nat) (h : i < 16), 2 ≤ i → (nonceExpand v)[i] = 0

/-- R111: SEED loads the counter, empties the keystream buffer and sets `CVALID`; `KS` and the framer keep their values. -/
def Obligations.SeedLoadsTheCounter : Prop :=
  ∀ (v : Seed) (s : State),
    let t := { s with ctr := nonceExpand v, kidx := 16, cvalid := true }
    exec (.seed v) s = .next { t with outbox := s.outbox ++ [respWord true false 0 (status t)] }

/-- R112: RDCTR returns the counter byte in every state and changes nothing. -/
def Obligations.RdctrReturnsTheCounterByte : Prop :=
  ∀ (idx : BitVec 4) (s : State),
    exec (.rdctr idx) s =
      .next { s with outbox := s.outbox ++ [respWord true true (s.ctr[idx.toNat]) (status s)] }

/-- R80, R111, R112: SEED `v` and then READIV return the sixteen bytes `v[7:0], v[15:8], 00 x 14` (the fixture of
95_test_vectors.md 1.2), from any state. (The event queue is log entry 2.) -/
def Obligations.ReadIvAfterSeedReturnsTheInitialBlock : Prop :=
  ∀ (s : State) (v : Seed) (rest : List HostEvent),
    s.inbox = issue (.seed v :: expand .readiv) ++ rest →
    ∃ t r rs, run 17 s = .next t ∧ t.inbox = rest ∧ t.outbox = s.outbox ++ (r :: rs) ∧ acceptedPlain r ∧
      (∀ q ∈ rs, acceptedData q) ∧
      rs.map respData = v.extractLsb' 0 8 :: v.extractLsb' 8 8 :: List.replicate 14 0

/-! ## The AES-128 core -/

/-- R133: the two FIPS-197 reference values. -/
def Obligations.AesMeetsTheReferenceVectors : Prop :=
  aes128 #v[0x00, 0x01, 0x02, 0x03, 0x04, 0x05, 0x06, 0x07, 0x08, 0x09, 0x0a, 0x0b, 0x0c, 0x0d, 0x0e, 0x0f]
      #v[0x00, 0x11, 0x22, 0x33, 0x44, 0x55, 0x66, 0x77, 0x88, 0x99, 0xaa, 0xbb, 0xcc, 0xdd, 0xee, 0xff] =
    #v[0x69, 0xc4, 0xe0, 0xd8, 0x6a, 0x7b, 0x04, 0x30, 0xd8, 0xcd, 0xb7, 0x80, 0x70, 0xb4, 0xc5, 0x5a] ∧
  aes128 #v[0x2b, 0x7e, 0x15, 0x16, 0x28, 0xae, 0xd2, 0xa6, 0xab, 0xf7, 0x15, 0x88, 0x09, 0xcf, 0x4f, 0x3c]
      #v[0x32, 0x43, 0xf6, 0xa8, 0x88, 0x5a, 0x30, 0x8d, 0x31, 0x31, 0x98, 0xa2, 0xe0, 0x37, 0x07, 0x34] =
    #v[0x39, 0x25, 0x84, 0x1d, 0x02, 0xdc, 0x09, 0xfb, 0xdc, 0x11, 0x85, 0x97, 0x19, 0x6a, 0x0b, 0x32]

/-- R124: each S-box value is the affine map of the byte's inverse in GF(2^8), with 0 for the inverse of 0. -/
def Obligations.SboxIsTheAffineMapOfTheInverse : Prop :=
  ∀ a : Byte, ∃ b : Byte, (a = 0 → b = 0) ∧ (a ≠ 0 → gmul a b = 1) ∧
    sbox a = b ^^^ b.rotateLeft 1 ^^^ b.rotateLeft 2 ^^^ b.rotateLeft 3 ^^^ b.rotateLeft 4 ^^^ 0x63

/-- R123: the bytes are the field GF(2^8) modulo `0x11B` under XOR and `gmul`: `gmul` is commutative, associative and
distributive over XOR, 1 is neutral, every byte but 0 has an inverse; 2 acts as `xtime`, which shifts left and reduces by
`0x1B` where bit 7 was set. -/
def Obligations.GmulIsFieldMultiplication : Prop :=
  (∀ a b c : Byte,
    gmul a b = gmul b a ∧ gmul (gmul a b) c = gmul a (gmul b c) ∧ gmul a (b ^^^ c) = gmul a b ^^^ gmul a c ∧
    gmul a 1 = a ∧ gmul a 2 = xtime a ∧ gmul (xtime a) b = xtime (gmul a b)) ∧
  ∀ a : Byte, xtime a = (a <<< 1) ^^^ (if a.getLsbD 7 then 0x1B else 0) ∧ (a ≠ 0 → ∃ b : Byte, gmul a b = 1)

/-- R125, R126: the 44 words of the key expansion, the words of the example key, the four words a round uses, and the round
constants. -/
def Obligations.KeyExpansionMeetsItsRecurrence : Prop :=
  (∀ k : Block,
    (keyExpansion k).length = 44 ∧
    (∀ (j : Nat) (h : j < 4), (keyExpansion k)[j]? =
      some #v[k[4 * j], k[4 * j + 1], k[4 * j + 2], k[4 * j + 3]]) ∧
    (∀ j : Nat, 4 ≤ j → j < 44 → ∃ p q w : KeyWord,
      (keyExpansion k)[j - 1]? = some p ∧ (keyExpansion k)[j - 4]? = some q ∧ (keyExpansion k)[j]? = some w ∧
      (j % 4 ≠ 0 → w = #v[q[0] ^^^ p[0], q[1] ^^^ p[1], q[2] ^^^ p[2], q[3] ^^^ p[3]]) ∧
      (j % 4 = 0 → w = #v[q[0] ^^^ (sbox p[1] ^^^ rcon (j / 4)), q[1] ^^^ sbox p[2], q[2] ^^^ sbox p[3],
        q[3] ^^^ sbox p[0]]))) ∧
  (let ws := keyExpansion
      #v[0x2b, 0x7e, 0x15, 0x16, 0x28, 0xae, 0xd2, 0xa6, 0xab, 0xf7, 0x15, 0x88, 0x09, 0xcf, 0x4f, 0x3c]
   ws[4]? = some #v[0xa0, 0xfa, 0xfe, 0x17] ∧ ws[5]? = some #v[0x88, 0x54, 0x2c, 0xb1] ∧
   ws[40]? = some #v[0xd0, 0x14, 0xf9, 0xa8] ∧ ws[43]? = some #v[0xb6, 0x63, 0x0c, 0xa6]) ∧
  (∀ (b : Block) (w w' : List KeyWord) (rnd : Nat), (∀ c : Nat, c < 4 → w[4 * rnd + c]? = w'[4 * rnd + c]?) →
    addRoundKey w rnd b = addRoundKey w' rnd b) ∧
  (List.range' 1 10).map rcon = [0x01, 0x02, 0x04, 0x08, 0x10, 0x20, 0x40, 0x80, 0x1b, 0x36] ∧
  ∀ i : Nat, 1 ≤ i → rcon (i + 1) = xtime (rcon i)

/-- R127, R128, R130: SubBytes, ShiftRows and AddRoundKey at row `r` and column `c`, byte `r + 4c` of the block. -/
def Obligations.RoundTransformsActByRowAndColumn : Prop :=
  ∀ (s : Block) (r c : Nat) (hr : r < 4) (hc : c < 4),
    (subBytes s)[r + 4 * c] = sbox s[r + 4 * c] ∧
    (shiftRows s)[r + 4 * c] = s[r + 4 * ((c + r) % 4)] ∧
    ∀ (w : List KeyWord) (rnd : Nat) (x : KeyWord), w[4 * rnd + c]? = some x →
      (addRoundKey w rnd s)[r + 4 * c] = s[r + 4 * c] ^^^ x[r]

/-- R129: MixColumns on each column, in terms of `gmul`. -/
def Obligations.MixColumnsMultipliesByTheMatrix : Prop :=
  (∀ (s : Block) (c : Nat) (hc : c < 4),
    let a0 := s[4 * c]
    let a1 := s[1 + 4 * c]
    let a2 := s[2 + 4 * c]
    let a3 := s[3 + 4 * c]
    (mixColumns s)[4 * c] = gmul a0 2 ^^^ gmul a1 3 ^^^ a2 ^^^ a3 ∧
    (mixColumns s)[1 + 4 * c] = a0 ^^^ gmul a1 2 ^^^ gmul a2 3 ^^^ a3 ∧
    (mixColumns s)[2 + 4 * c] = a0 ^^^ a1 ^^^ gmul a2 2 ^^^ gmul a3 3 ∧
    (mixColumns s)[3 + 4 * c] = gmul a0 3 ^^^ a1 ^^^ a2 ^^^ gmul a3 2) ∧
  ∀ a : Byte, gmul a 2 = xtime a ∧ gmul a 3 = xtime a ^^^ a

/-! ## Keystream and decryption -/

/-- R150: `Inc` adds one modulo 2^128 in the byte order `CTR_INC` names, and under LE128 is the byte reversal of the
big-endian increment. The all-ones block becomes all zeros, and the XORB that makes it do so is accepted and records no error
and sets no flag. The default is LE128. -/
def Obligations.IncAddsOneModuloTwoToThe128 : Prop :=
  (∀ c : Block,
    inc .le128 c = leBlock (intLE c + 1) ∧ inc .be128 c = beBlock (intBE c + 1) ∧
    intLE (inc .le128 c) = (intLE c + 1) % 2 ^ 128 ∧ intBE (inc .be128 c) = (intBE c + 1) % 2 ^ 128 ∧
    reverseBlock (inc .le128 c) = inc .be128 (reverseBlock c)) ∧
  (∀ m : CtrInc, inc m (Vector.replicate 16 0xFF) = Vector.replicate 16 0) ∧
  (∀ (byte : Byte) (s : State), s.klock = true → s.cvalid = true → s.kidx.val = 16 →
    s.ctr = Vector.replicate 16 0xFF →
    ∃ t r, exec (.xorb byte) s = .next t ∧ t.outbox = s.outbox ++ [r] ∧ respAcc r = true ∧
      t = { s with ks := t.ks, ctr := Vector.replicate 16 0, kidx := 1, outbox := t.outbox }) ∧
  Config.ctrIncDefault = .le128

/-- R151, R152: with the key locked and the counter valid XORB is performed. With a byte buffered it takes byte `KIDX` of
`KS`; with the buffer empty it generates a block, increments the counter and takes byte 0. -/
def Obligations.XorbTakesTheNextKeystreamByte : Prop :=
  ∀ (byte : Byte) (s : State), s.klock = true → s.cvalid = true →
    (∀ h : s.kidx.val < 16,
      let t := { s with kidx := ⟨s.kidx.val + 1, Nat.succ_lt_succ h⟩ }
      exec (.xorb byte) s =
        .next { t with outbox := s.outbox ++ [respWord true true (byte ^^^ s.ks[s.kidx.val]) (status t)] }) ∧
    (s.kidx.val = 16 →
      let t := { s with ks := aes128 s.key s.ctr, ctr := inc s.ctrInc s.ctr, kidx := 1 }
      exec (.xorb byte) s =
        .next { t with outbox := s.outbox ++ [respWord true true (byte ^^^ (aes128 s.key s.ctr)[0]) (status t)] })

/-- R152, R202: XORB without a locked key is refused `NOKEY`, whatever `CVALID` is; with it and no counter, `NOCTR`. A refused
XORB consumes no keystream byte. -/
def Obligations.XorbIsRefusedWithoutKeyOrCounter : Prop :=
  ∀ (byte : Byte) (s : State),
    (s.klock = false →
      let t := { s with eNokey := true, lcause := 2 }
      exec (.xorb byte) s = .next { t with outbox := s.outbox ++ [respWord false false 0 (status t)] }) ∧
    (s.klock = true → s.cvalid = false →
      let t := { s with eNoctr := true, lcause := 3 }
      exec (.xorb byte) s = .next { t with outbox := s.outbox ++ [respWord false false 0 (status t)] })

/-- R153: `decrypt`, which the model gives by position (log entry 9), is the spec's own form: plaintext byte `16b + j` is
ciphertext byte `16b + j` XOR byte `j` of `AES128(K, c)`, with `c` the initial block incremented `b` times. And from any state
with the key locked, `SEED v` and one XORB per ciphertext byte return `Decrypt(KEY, v, C)`, every command accepted, for every
ciphertext. (The increment setting and the event queue are log entries 1 and 2.) -/
def Obligations.XorbStreamComputesDecrypt : Prop :=
  (∀ (m : CtrInc) (k : Block) (v : Seed) (text : List Byte),
    (decrypt m k v text).length = text.length ∧
    ∀ (b j : Nat) (hj : j < 16) (h : 16 * b + j < text.length),
      (decrypt m k v text)[16 * b + j]? =
        some (text[16 * b + j] ^^^ (aes128 k (Nat.iterate (inc m) b (nonceExpand v)))[j])) ∧
  ∀ (s : State) (v : Seed) (c : List Byte) (rest : List HostEvent), s.klock = true →
    s.inbox = issue (.seed v :: c.map .xorb) ++ rest →
    ∃ t r rs, run (c.length + 1) s = .next t ∧ t.inbox = rest ∧ t.outbox = s.outbox ++ (r :: rs) ∧ acceptedPlain r ∧
      (∀ q ∈ rs, acceptedData q) ∧ rs.map respData = decrypt s.ctrInc s.key v c

/-- R151, R152: the counter and `KIDX` after `n` bytes of a seed: one increment for each block begun, and the buffer empty
exactly after a whole number of blocks. (The increment setting and the event queue are log entries 1 and 2.) -/
def Obligations.CounterAdvancesOncePerBlock : Prop :=
  ∀ (s : State) (v : Seed) (c : List Byte) (rest : List HostEvent), s.klock = true →
    s.inbox = issue (.seed v :: c.map .xorb) ++ rest →
    ∃ t, run (c.length + 1) s = .next t ∧
      t.ctr = Nat.iterate (inc s.ctrInc) ((c.length + 15) / 16) (nonceExpand v) ∧
      (t.kidx.val = 16 ↔ c.length % 16 = 0) ∧ (c.length % 16 ≠ 0 → t.kidx.val = c.length % 16) ∧
      t.key = s.key ∧ t.fpos = s.fpos ∧ t.flo = s.flo ∧ t.fpm = s.fpm

/-- R154: decrypting twice under one key and seed gives the text back, and the length is kept. (`decrypt` is R153 by position,
log entry 9; `XorbStreamComputesDecrypt` states R153's own form of it.) -/
def Obligations.DecryptIsItsOwnInverse : Prop :=
  ∀ (m : CtrInc) (k : Block) (v : Seed) (p : List Byte),
    decrypt m k v (decrypt m k v p) = p ∧ (decrypt m k v p).length = p.length

/-- R156: inside one seed's keystream no counter block comes twice in 2^128 blocks. Under LE128 the counter of block
`v2 - v1` after seed `v1` is the initial block of `v2`, and no earlier block of `v1` is a block of `v2`, as long as the
counter of `v2` has not come round to `v1`. Under BE128 the keystreams of two seeds share no counter block in their first
2^112 blocks. -/
def Obligations.CounterBlocksMeetOnlyWhereTheSpecSays : Prop :=
  (∀ (m : CtrInc) (v : Seed) (a b : Nat), a < b → b < 2 ^ 128 →
    Nat.iterate (inc m) a (nonceExpand v) ≠ Nat.iterate (inc m) b (nonceExpand v)) ∧
  (∀ v w : Seed, v.toNat < w.toNat →
    Nat.iterate (inc .le128) (w.toNat - v.toNat) (nonceExpand v) = nonceExpand w ∧
    ∀ a b : Nat, a < w.toNat - v.toNat → b + (w.toNat - v.toNat) < 2 ^ 128 →
      Nat.iterate (inc .le128) a (nonceExpand v) ≠ Nat.iterate (inc .le128) b (nonceExpand w)) ∧
  ∀ (v w : Seed) (a b : Nat), v ≠ w → a < 2 ^ 112 → b < 2 ^ 112 →
    Nat.iterate (inc .be128) a (nonceExpand v) ≠ Nat.iterate (inc .be128) b (nonceExpand w)

/-- R25, R28, R62: the keystream buffer stays coherent, and no keystream is generated while the key is unlocked: every step,
on every event, keeps `KeystreamCoherent` and keeps `NoKeystreamWhileUnlocked`. -/
def Obligations.EveryStepKeepsTheKeystreamCoherent : Prop :=
  ∀ s t : State, step s = .next t →
    (KeystreamCoherent s → KeystreamCoherent t) ∧ (NoKeystreamWhileUnlocked s → NoKeystreamWhileUnlocked t)

/-- R28 (93_implementation_defined.md I6): with `KIDX = 16` the contents of `KS` cannot be observed: after any event, two
states that differ in `KS` alone differ at most in `KS`, and then still with nothing buffered. -/
def Obligations.StaleKeystreamIsNeverObserved : Prop :=
  ∀ (s : State) (b : Block) (e : HostEvent), s.kidx.val = 16 →
    ∃ t, performEvent e s = .next t ∧
      (performEvent e { s with ks := b } = .next t ∨
        (t.kidx.val = 16 ∧ performEvent e { s with ks := b } = .next { t with ks := b }))

/-! ## Framer -/

/-- R170 to R172: a slice byte at positions 0 to 4 is accepted and ignored, but for clearing `FPM` at position 0; the byte at
position 5 is latched into `FLO`; only `FPOS` moves beside it. -/
def Obligations.FramebTakesTheBytesBeforeTheSeedCompletes : Prop :=
  ∀ (byte : Byte) (s : State),
    (∀ h : s.fpos.val < 5,
      let t := { s with
        fpos := ⟨s.fpos.val + 1, Nat.succ_lt_succ (Nat.lt_trans h (by decide))⟩
        fpm := if s.fpos.val = 0 then false else s.fpm }
      exec (.frameb byte) s = .next { t with outbox := s.outbox ++ [respWord true false 0 (status t)] }) ∧
    (s.fpos.val = 5 →
      let t := { s with fpos := 6, flo := byte }
      exec (.frameb byte) s = .next { t with outbox := s.outbox ++ [respWord true false 0 (status t)] })

/-- R173: at position 6 the framer has exactly the effect of `SEED (FLO | b << 8)`, and the counter block is the two wire
bytes and fourteen zeros. -/
def Obligations.FramebHighByteIsSeed : Prop :=
  ∀ (byte : Byte) (s : State), s.fpos.val = 6 →
    ∃ t : State, exec (.seed (seedOfBytes s.flo byte)) s = .next t ∧
      exec (.frameb byte) s = .next { t with fpos := 7 } ∧
      t.ctr = #v[s.flo, byte, 0, 0, 0, 0, 0, 0, 0, 0, 0, 0, 0, 0, 0, 0] ∧ t.kidx.val = 16 ∧ t.cvalid = true

/-- R174: at position 7 `FPM` becomes 1 if the byte differs from `KEY[0]` and 0 otherwise, and nothing is refused. -/
def Obligations.FramebChecksTheFingerprint : Prop :=
  ∀ (byte : Byte) (s : State), s.fpos.val = 7 →
    let t := { s with fpos := 8, fpm := decide (byte ≠ s.key[0]) }
    exec (.frameb byte) s = .next { t with outbox := s.outbox ++ [respWord true false 0 (status t)] }

/-- R175: at position 8 a FRAMEB is decrypted exactly as XORB decrypts it, refusals included, and `FPOS` stays. -/
def Obligations.FramebCiphertextIsXorb : Prop :=
  ∀ (byte : Byte) (s : State), s.fpos.val = 8 →
    exec (.frameb byte) s = exec (.xorb byte) s ∧ ∀ t, exec (.frameb byte) s = .next t → t.fpos = s.fpos

/-- R175: a slice of at least eight bytes, fed to an idle framer with the key locked, returns `Decrypt(KEY, v, slice[8..])`
with `v` from slice bytes 5 and 6, after eight responses without data. (The increment setting, the event queue and `decrypt` by
position are log entries 1, 2 and 9.) -/
def Obligations.FrameComputesDecrypt : Prop :=
  ∀ (s : State) (slice : List Byte) (rest : List HostEvent) (h : 8 ≤ slice.length), s.klock = true → s.fpos.val = 0 →
    s.inbox = issue (slice.map .frameb) ++ rest →
    ∃ t hs rs, run slice.length s = .next t ∧ t.inbox = rest ∧ t.outbox = s.outbox ++ (hs ++ rs) ∧ hs.length = 8 ∧
      (∀ r ∈ hs, acceptedPlain r) ∧ (∀ r ∈ rs, acceptedData r) ∧
      rs.map respData = decrypt s.ctrInc s.key (seedOfBytes slice[5] slice[6]) (slice.drop 8) ∧
      t.fpos.val = 8 ∧ t.fpm = decide (slice[7] ≠ s.key[0])

/-- R176: FRAMEEND ends the frame or stream and keeps `CTR`, `FPM` and the key. It is accepted with no frame in progress or
a complete header; with `0 < FPOS < CT_OFFSET` it is refused `SHORT`, and its writes persist. -/
def Obligations.FrameendEndsTheFrame : Prop :=
  ∀ s : State,
    (s.fpos.val = 0 ∨ s.fpos.val = 8 →
      let t := { s with fpos := 0, flo := 0, cvalid := false, kidx := 16 }
      exec .frameend s = .next { t with outbox := s.outbox ++ [respWord true false 0 (status t)] }) ∧
    (0 < s.fpos.val → s.fpos.val < 8 →
      let t := { s with fpos := 0, flo := 0, cvalid := false, kidx := 16, eShort := true, lcause := 5 }
      exec .frameend s = .next { t with outbox := s.outbox ++ [respWord false false 0 (status t)] })

/-- R170, R172, R176: a frame past its seed has a counter, and `FLO` is clear outside it: every step keeps `FrameCoherent`. -/
def Obligations.EveryStepKeepsTheFrameCoherent : Prop :=
  ∀ s t : State, FrameCoherent s → step s = .next t → FrameCoherent t

/-- R170: "A ciphertext byte with `CVALID = 0` is unreachable": from a frame-coherent state every FRAMEB is performed when the
key is locked, and otherwise performed or refused `NOKEY`; none is refused `NOCTR`. -/
def Obligations.FramebIsNeverRefusedForWantOfACounter : Prop :=
  ∀ (byte : Byte) (s : State), FrameCoherent s →
    ∃ t r, exec (.frameb byte) s = .next t ∧ t.outbox = s.outbox ++ [r] ∧ (s.klock = true → respAcc r = true) ∧
      (respAcc r = false → t.lcause = causeCode .nokey) ∧ t.eNoctr = s.eNoctr ∧
      (t.lcause = causeCode .noctr → s.lcause = causeCode .noctr)

/-! ## Control and the error record -/

/-- R190: NOP responds with STATUS and changes nothing, in every state. -/
def Obligations.NopOnlyResponds : Prop :=
  ∀ s : State, exec .nop s = .next { s with outbox := s.outbox ++ [respWord true false 0 (status s)] }

/-- R191: CLRERR clears the error record and nothing else. -/
def Obligations.ClrerrClearsTheErrorRecord : Prop :=
  ∀ s : State,
    let t := { s with
      eIll := false, eNokey := false, eNoctr := false, eKlock := false, eShort := false, lcause := 0 }
    exec .clrerr s = .next { t with outbox := s.outbox ++ [respWord true false 0 (status t)] } ∧
    (status t).extractLsb' 8 8 = 0

/-- R203, R206: a command word that is answered with `ACC = 0`, FRAMEEND apart, changed nothing but the error record: one
sticky bit set and `LCAUSE` its code. -/
def Obligations.RefusalChangesOnlyTheErrorRecord : Prop :=
  ∀ (w : Word) (s t : State) (r : Word), decode w ≠ .instr .frameend → performWord w s = .next t →
    t.outbox = s.outbox ++ [r] → respAcc r = false →
    ∃ c : Cause,
      stickyOf t c = true ∧ (∀ d : Cause, d ≠ c → stickyOf t d = stickyOf s d) ∧
      t = { s with eIll := t.eIll, eNokey := t.eNokey, eNoctr := t.eNoctr, eKlock := t.eKlock, eShort := t.eShort,
                   lcause := causeCode c, outbox := t.outbox }

/-- R35, R36, R207: a sticky bit stays set through every event but CLRERR and reset, and an accepted command other than
CLRERR leaves all of the error record as it was. -/
def Obligations.ErrorRecordOnlyAccumulates : Prop :=
  ∀ (w : Word) (s t : State) (r : Word), decode w ≠ .instr .clrerr → performWord w s = .next t →
    t.outbox = s.outbox ++ [r] →
    (∀ c : Cause, stickyOf s c = true → stickyOf t c = true) ∧
    (respAcc r = true → (∀ c : Cause, stickyOf t c = stickyOf s c) ∧ t.lcause = s.lcause)

/-- R36, R200: every step keeps the error record coherent; in particular `LCAUSE` never holds 6 or 7. -/
def Obligations.EveryStepKeepsTheErrorRecordCoherent : Prop :=
  ∀ s t : State, ErrorRecordCoherent s → step s = .next t → ErrorRecordCoherent t ∧ t.lcause.toNat ≤ 5

/-- R201: the error record never changes what a command does: from two states that differ in it alone, any command leaves the
same data state and answers the same `DATA`, `DV` and `ACC`. -/
def Obligations.ErrorRecordDoesNotSteerTheBlock : Prop :=
  ∀ (w : Word) (s u : State),
    u = { s with eIll := u.eIll, eNokey := u.eNokey, eNoctr := u.eNoctr, eKlock := u.eKlock, eShort := u.eShort,
                 lcause := u.lcause } →
    ∃ (s' u' : State) (r q : Word), performWord w s = .next s' ∧ performWord w u = .next u' ∧
      u' = { s' with eIll := u'.eIll, eNokey := u'.eNokey, eNoctr := u'.eNoctr, eKlock := u'.eKlock,
                     eShort := u'.eShort, lcause := u'.lcause, outbox := u'.outbox } ∧
      s'.outbox = s.outbox ++ [r] ∧ u'.outbox = u.outbox ++ [q] ∧ respData r = respData q ∧ respDv r = respDv q ∧
      respAcc r = respAcc q

/-- R56: NOP, KEYB, SEED, FRAMEEND, RDCTR and CLRERR issued twice in a row leave the state that once leaves. -/
def Obligations.IdempotentCommandsRepeatWithoutEffect : Prop :=
  ∀ (i : Instr) (s t u : State), i ≠ .keylock → (∀ b, i ≠ .xorb b) → (∀ b, i ≠ .frameb b) →
    exec i s = .next t → exec i t = .next u →
    u = { t with outbox := u.outbox }

/-- R235: a FRAMEEND leaves `Idle`; one that is not refused keeps `Clean`; one refused `SHORT` is not `Clean`. The reset
state is `Clean` and `Idle`. -/
def Obligations.FrameendLeavesIdle : Prop :=
  (∀ s t : State, exec .frameend s = .next t →
    Idle t ∧ ((s.fpos.val = 0 ∨ s.fpos.val = 8) → Clean s → Clean t) ∧
    (0 < s.fpos.val → s.fpos.val < 8 → ¬ Clean t)) ∧
  Clean State.reset ∧ Idle State.reset

/-- The reset state meets every invariant of these statements (R231). -/
def Obligations.ResetMeetsTheInvariants : Prop :=
  KeystreamCoherent State.reset ∧ NoKeystreamWhileUnlocked State.reset ∧ FrameCoherent State.reset ∧
  ErrorRecordCoherent State.reset
end

