-- ==== Sys2Proof/Laws/Bytes.lean ====
section
/-! SUPPORT. Byte arrays: the bytes of `LE_16`, `BE_16` and `Reverse`, and that `intLE` and `intBE` invert them (R9). -/

namespace Sys2Proof.Machine

@[simp] theorem leBlock_getElem (x i : Nat) (h : i < 16) : (leBlock x)[i] = BitVec.ofNat 8 (x >>> (8 * i)) := by
  simp [leBlock]

@[simp] theorem beBlock_getElem (x i : Nat) (h : i < 16) :
    (beBlock x)[i] = BitVec.ofNat 8 (x >>> (8 * (15 - i))) := by
  simp [beBlock]

@[simp] theorem reverseBlock_getElem (b : Block) (i : Nat) (h : i < 16) : (reverseBlock b)[i] = b[15 - i] := by
  simp [reverseBlock]

theorem reverseBlock_reverseBlock (b : Block) : reverseBlock (reverseBlock b) = b := by
  ext i h
  have : 15 - (15 - i) = i := by omega
  simp [this]

/-- Reversing the big-endian block gives the little-endian block. -/
theorem reverseBlock_beBlock (x : Nat) : reverseBlock (beBlock x) = leBlock x := by
  ext i h
  have : 15 - (15 - i) = i := by omega
  simp [this]

theorem reverseBlock_leBlock (x : Nat) : reverseBlock (leBlock x) = beBlock x := by
  rw [← reverseBlock_beBlock, reverseBlock_reverseBlock]

/-- The little-endian bytes of `x`, least significant first. -/
def leBytes : Nat → Nat → List Byte
  | 0, _ => []
  | n + 1, x => BitVec.ofNat 8 x :: leBytes n (x / 256)

theorem leBytes_length (n x : Nat) : (leBytes n x).length = n := by
  induction n generalizing x with
  | zero => rfl
  | succ n ih => simp [leBytes, ih]

theorem leBytes_getElem? (n x i : Nat) (h : i < n) : (leBytes n x)[i]? = some (BitVec.ofNat 8 (x >>> (8 * i))) := by
  induction n generalizing x i with
  | zero => omega
  | succ n ih =>
    cases i with
    | zero => simp [leBytes]
    | succ i =>
      have e : (x / 256) >>> (8 * i) = x >>> (8 * (i + 1)) := by
        rw [Nat.mul_add, Nat.add_comm, Nat.shiftRight_add]
        simp [Nat.shiftRight_eq_div_pow]
      simp only [leBytes, List.getElem?_cons_succ]
      rw [ih (x / 256) i (by omega), e]

theorem leBlock_toList (x : Nat) : (leBlock x).toList = leBytes 16 x := by
  apply List.ext_getElem?
  intro i
  by_cases h : i < 16
  · rw [leBytes_getElem? 16 x i h]
    simp [h]
  · rw [List.getElem?_eq_none (by simp; omega), List.getElem?_eq_none (by simp [leBytes_length]; omega)]

theorem natOfBytesLE_lt (l : List Byte) : natOfBytesLE l < 256 ^ l.length := by
  induction l with
  | nil => simp [natOfBytesLE]
  | cons b bs ih =>
    have := b.isLt
    simp only [natOfBytesLE, List.length_cons, Nat.pow_succ]
    omega

theorem natOfBytesLE_leBytes (n x : Nat) : natOfBytesLE (leBytes n x) = x % 256 ^ n := by
  induction n generalizing x with
  | zero => simp [leBytes, natOfBytesLE, Nat.mod_one]
  | succ n ih =>
    have e : x % 256 ^ (n + 1) = x % 256 + 256 * (x / 256 % 256 ^ n) := by
      rw [pow_succ, Nat.mul_comm (256 ^ n) 256, Nat.mod_mul]
    rw [e]
    simp [leBytes, natOfBytesLE, ih]

theorem leBytes_natOfBytesLE (l : List Byte) : leBytes l.length (natOfBytesLE l) = l := by
  induction l with
  | nil => rfl
  | cons b bs ih =>
    have hb := b.isLt
    have e1 : (b.toNat + 256 * natOfBytesLE bs) / 256 = natOfBytesLE bs := by omega
    have e2 : BitVec.ofNat 8 (b.toNat + 256 * natOfBytesLE bs) = b := by
      apply BitVec.eq_of_toNat_eq
      simp only [BitVec.toNat_ofNat]
      omega
    simp [leBytes, natOfBytesLE, e1, e2, ih]

/-- `intLE` of `LE_16(x)` is `x` modulo 2^128. -/
theorem intLE_leBlock (x : Nat) : intLE (leBlock x) = x % 2 ^ 128 := by
  rw [intLE, leBlock_toList, natOfBytesLE_leBytes]
  norm_num

/-- A block is the little-endian encoding of its value. -/
theorem leBlock_intLE (b : Block) : leBlock (intLE b) = b := by
  apply Vector.toList_inj.mp
  have := leBytes_natOfBytesLE b.toList
  rw [leBlock_toList, intLE]
  simpa using this

theorem intLE_lt (b : Block) : intLE b < 2 ^ 128 := by
  have := natOfBytesLE_lt b.toList
  simpa [intLE] using this

/-- `LE_16` depends on its argument modulo 2^128 alone. -/
theorem leBlock_mod (x : Nat) : leBlock (x % 2 ^ 128) = leBlock x := by
  rw [← intLE_leBlock, leBlock_intLE]

theorem reverseBlock_toList (b : Block) : (reverseBlock b).toList = b.toList.reverse := by
  apply List.ext_getElem?
  intro i
  by_cases h : i < 16
  · simp [h]
  · rw [List.getElem?_eq_none (by simp; omega), List.getElem?_eq_none (by simp; omega)]

/-- The big-endian value of a block is the little-endian value of its reversal. -/
theorem intBE_eq_intLE_reverse (b : Block) : intBE b = intLE (reverseBlock b) := by
  rw [intBE, intLE, reverseBlock_toList]

/-- `intBE` of `BE_16(x)` is `x` modulo 2^128. -/
theorem intBE_beBlock (x : Nat) : intBE (beBlock x) = x % 2 ^ 128 := by
  rw [intBE_eq_intLE_reverse, reverseBlock_beBlock, intLE_leBlock]

/-- A block is the big-endian encoding of its value. -/
theorem beBlock_intBE (b : Block) : beBlock (intBE b) = b := by
  rw [intBE_eq_intLE_reverse, ← reverseBlock_leBlock, leBlock_intLE, reverseBlock_reverseBlock]

theorem intBE_lt (b : Block) : intBE b < 2 ^ 128 := by
  rw [intBE_eq_intLE_reverse]
  exact intLE_lt _

end Sys2Proof.Machine
end

