-- ==== Sys2Proof/Laws/State.lean ====
section
/-! SUPPORT. What each named update does to each field of the state: one lemma per field per update. -/

namespace Sys2Proof.Machine

@[simp] theorem respond_key (acc dv : Bool) (data : Byte) (s : State) : (respond acc dv data s).key = s.key := rfl
@[simp] theorem respond_klock (acc dv : Bool) (data : Byte) (s : State) : (respond acc dv data s).klock = s.klock := rfl
@[simp] theorem respond_ctr (acc dv : Bool) (data : Byte) (s : State) : (respond acc dv data s).ctr = s.ctr := rfl
@[simp] theorem respond_cvalid (acc dv : Bool) (data : Byte) (s : State) : (respond acc dv data s).cvalid = s.cvalid := rfl
@[simp] theorem respond_ks (acc dv : Bool) (data : Byte) (s : State) : (respond acc dv data s).ks = s.ks := rfl
@[simp] theorem respond_kidx (acc dv : Bool) (data : Byte) (s : State) : (respond acc dv data s).kidx = s.kidx := rfl
@[simp] theorem respond_fpos (acc dv : Bool) (data : Byte) (s : State) : (respond acc dv data s).fpos = s.fpos := rfl
@[simp] theorem respond_flo (acc dv : Bool) (data : Byte) (s : State) : (respond acc dv data s).flo = s.flo := rfl
@[simp] theorem respond_fpm (acc dv : Bool) (data : Byte) (s : State) : (respond acc dv data s).fpm = s.fpm := rfl
@[simp] theorem respond_eIll (acc dv : Bool) (data : Byte) (s : State) : (respond acc dv data s).eIll = s.eIll := rfl
@[simp] theorem respond_eNokey (acc dv : Bool) (data : Byte) (s : State) : (respond acc dv data s).eNokey = s.eNokey := rfl
@[simp] theorem respond_eNoctr (acc dv : Bool) (data : Byte) (s : State) : (respond acc dv data s).eNoctr = s.eNoctr := rfl
@[simp] theorem respond_eKlock (acc dv : Bool) (data : Byte) (s : State) : (respond acc dv data s).eKlock = s.eKlock := rfl
@[simp] theorem respond_eShort (acc dv : Bool) (data : Byte) (s : State) : (respond acc dv data s).eShort = s.eShort := rfl
@[simp] theorem respond_lcause (acc dv : Bool) (data : Byte) (s : State) : (respond acc dv data s).lcause = s.lcause := rfl
@[simp] theorem respond_ctrInc (acc dv : Bool) (data : Byte) (s : State) : (respond acc dv data s).ctrInc = s.ctrInc := rfl
@[simp] theorem respond_inbox (acc dv : Bool) (data : Byte) (s : State) : (respond acc dv data s).inbox = s.inbox := rfl
@[simp] theorem respond_outbox (acc dv : Bool) (data : Byte) (s : State) : (respond acc dv data s).outbox = s.outbox ++ [respWord acc dv data (status s)] := rfl

@[simp] theorem accept_key (s : State) : (accept s).key = s.key := rfl
@[simp] theorem accept_klock (s : State) : (accept s).klock = s.klock := rfl
@[simp] theorem accept_ctr (s : State) : (accept s).ctr = s.ctr := rfl
@[simp] theorem accept_cvalid (s : State) : (accept s).cvalid = s.cvalid := rfl
@[simp] theorem accept_ks (s : State) : (accept s).ks = s.ks := rfl
@[simp] theorem accept_kidx (s : State) : (accept s).kidx = s.kidx := rfl
@[simp] theorem accept_fpos (s : State) : (accept s).fpos = s.fpos := rfl
@[simp] theorem accept_flo (s : State) : (accept s).flo = s.flo := rfl
@[simp] theorem accept_fpm (s : State) : (accept s).fpm = s.fpm := rfl
@[simp] theorem accept_eIll (s : State) : (accept s).eIll = s.eIll := rfl
@[simp] theorem accept_eNokey (s : State) : (accept s).eNokey = s.eNokey := rfl
@[simp] theorem accept_eNoctr (s : State) : (accept s).eNoctr = s.eNoctr := rfl
@[simp] theorem accept_eKlock (s : State) : (accept s).eKlock = s.eKlock := rfl
@[simp] theorem accept_eShort (s : State) : (accept s).eShort = s.eShort := rfl
@[simp] theorem accept_lcause (s : State) : (accept s).lcause = s.lcause := rfl
@[simp] theorem accept_ctrInc (s : State) : (accept s).ctrInc = s.ctrInc := rfl
@[simp] theorem accept_inbox (s : State) : (accept s).inbox = s.inbox := rfl
@[simp] theorem accept_outbox (s : State) : (accept s).outbox = s.outbox ++ [respWord true false 0 (status s)] := rfl

@[simp] theorem acceptData_key (data : Byte) (s : State) : (acceptData data s).key = s.key := rfl
@[simp] theorem acceptData_klock (data : Byte) (s : State) : (acceptData data s).klock = s.klock := rfl
@[simp] theorem acceptData_ctr (data : Byte) (s : State) : (acceptData data s).ctr = s.ctr := rfl
@[simp] theorem acceptData_cvalid (data : Byte) (s : State) : (acceptData data s).cvalid = s.cvalid := rfl
@[simp] theorem acceptData_ks (data : Byte) (s : State) : (acceptData data s).ks = s.ks := rfl
@[simp] theorem acceptData_kidx (data : Byte) (s : State) : (acceptData data s).kidx = s.kidx := rfl
@[simp] theorem acceptData_fpos (data : Byte) (s : State) : (acceptData data s).fpos = s.fpos := rfl
@[simp] theorem acceptData_flo (data : Byte) (s : State) : (acceptData data s).flo = s.flo := rfl
@[simp] theorem acceptData_fpm (data : Byte) (s : State) : (acceptData data s).fpm = s.fpm := rfl
@[simp] theorem acceptData_eIll (data : Byte) (s : State) : (acceptData data s).eIll = s.eIll := rfl
@[simp] theorem acceptData_eNokey (data : Byte) (s : State) : (acceptData data s).eNokey = s.eNokey := rfl
@[simp] theorem acceptData_eNoctr (data : Byte) (s : State) : (acceptData data s).eNoctr = s.eNoctr := rfl
@[simp] theorem acceptData_eKlock (data : Byte) (s : State) : (acceptData data s).eKlock = s.eKlock := rfl
@[simp] theorem acceptData_eShort (data : Byte) (s : State) : (acceptData data s).eShort = s.eShort := rfl
@[simp] theorem acceptData_lcause (data : Byte) (s : State) : (acceptData data s).lcause = s.lcause := rfl
@[simp] theorem acceptData_ctrInc (data : Byte) (s : State) : (acceptData data s).ctrInc = s.ctrInc := rfl
@[simp] theorem acceptData_inbox (data : Byte) (s : State) : (acceptData data s).inbox = s.inbox := rfl
@[simp] theorem acceptData_outbox (data : Byte) (s : State) : (acceptData data s).outbox = s.outbox ++ [respWord true true data (status s)] := rfl

@[simp] theorem recordCause_key (c : Cause) (s : State) : (recordCause c s).key = s.key := rfl
@[simp] theorem recordCause_klock (c : Cause) (s : State) : (recordCause c s).klock = s.klock := rfl
@[simp] theorem recordCause_ctr (c : Cause) (s : State) : (recordCause c s).ctr = s.ctr := rfl
@[simp] theorem recordCause_cvalid (c : Cause) (s : State) : (recordCause c s).cvalid = s.cvalid := rfl
@[simp] theorem recordCause_ks (c : Cause) (s : State) : (recordCause c s).ks = s.ks := rfl
@[simp] theorem recordCause_kidx (c : Cause) (s : State) : (recordCause c s).kidx = s.kidx := rfl
@[simp] theorem recordCause_fpos (c : Cause) (s : State) : (recordCause c s).fpos = s.fpos := rfl
@[simp] theorem recordCause_flo (c : Cause) (s : State) : (recordCause c s).flo = s.flo := rfl
@[simp] theorem recordCause_fpm (c : Cause) (s : State) : (recordCause c s).fpm = s.fpm := rfl
@[simp] theorem recordCause_eIll (c : Cause) (s : State) : (recordCause c s).eIll = (s.eIll || decide (c = .illegal)) := rfl
@[simp] theorem recordCause_eNokey (c : Cause) (s : State) : (recordCause c s).eNokey = (s.eNokey || decide (c = .nokey)) := rfl
@[simp] theorem recordCause_eNoctr (c : Cause) (s : State) : (recordCause c s).eNoctr = (s.eNoctr || decide (c = .noctr)) := rfl
@[simp] theorem recordCause_eKlock (c : Cause) (s : State) : (recordCause c s).eKlock = (s.eKlock || decide (c = .keylocked)) := rfl
@[simp] theorem recordCause_eShort (c : Cause) (s : State) : (recordCause c s).eShort = (s.eShort || decide (c = .short)) := rfl
@[simp] theorem recordCause_lcause (c : Cause) (s : State) : (recordCause c s).lcause = causeCode c := rfl
@[simp] theorem recordCause_ctrInc (c : Cause) (s : State) : (recordCause c s).ctrInc = s.ctrInc := rfl
@[simp] theorem recordCause_inbox (c : Cause) (s : State) : (recordCause c s).inbox = s.inbox := rfl
@[simp] theorem recordCause_outbox (c : Cause) (s : State) : (recordCause c s).outbox = s.outbox := rfl

@[simp] theorem refuse_key (c : Cause) (s : State) : (refuse c s).key = s.key := rfl
@[simp] theorem refuse_klock (c : Cause) (s : State) : (refuse c s).klock = s.klock := rfl
@[simp] theorem refuse_ctr (c : Cause) (s : State) : (refuse c s).ctr = s.ctr := rfl
@[simp] theorem refuse_cvalid (c : Cause) (s : State) : (refuse c s).cvalid = s.cvalid := rfl
@[simp] theorem refuse_ks (c : Cause) (s : State) : (refuse c s).ks = s.ks := rfl
@[simp] theorem refuse_kidx (c : Cause) (s : State) : (refuse c s).kidx = s.kidx := rfl
@[simp] theorem refuse_fpos (c : Cause) (s : State) : (refuse c s).fpos = s.fpos := rfl
@[simp] theorem refuse_flo (c : Cause) (s : State) : (refuse c s).flo = s.flo := rfl
@[simp] theorem refuse_fpm (c : Cause) (s : State) : (refuse c s).fpm = s.fpm := rfl
@[simp] theorem refuse_eIll (c : Cause) (s : State) : (refuse c s).eIll = (s.eIll || decide (c = .illegal)) := rfl
@[simp] theorem refuse_eNokey (c : Cause) (s : State) : (refuse c s).eNokey = (s.eNokey || decide (c = .nokey)) := rfl
@[simp] theorem refuse_eNoctr (c : Cause) (s : State) : (refuse c s).eNoctr = (s.eNoctr || decide (c = .noctr)) := rfl
@[simp] theorem refuse_eKlock (c : Cause) (s : State) : (refuse c s).eKlock = (s.eKlock || decide (c = .keylocked)) := rfl
@[simp] theorem refuse_eShort (c : Cause) (s : State) : (refuse c s).eShort = (s.eShort || decide (c = .short)) := rfl
@[simp] theorem refuse_lcause (c : Cause) (s : State) : (refuse c s).lcause = causeCode c := rfl
@[simp] theorem refuse_ctrInc (c : Cause) (s : State) : (refuse c s).ctrInc = s.ctrInc := rfl
@[simp] theorem refuse_inbox (c : Cause) (s : State) : (refuse c s).inbox = s.inbox := rfl
@[simp] theorem refuse_outbox (c : Cause) (s : State) : (refuse c s).outbox = s.outbox ++ [respWord false false 0 (status (recordCause c s))] := rfl

@[simp] theorem clearErrors_key (s : State) : (clearErrors s).key = s.key := rfl
@[simp] theorem clearErrors_klock (s : State) : (clearErrors s).klock = s.klock := rfl
@[simp] theorem clearErrors_ctr (s : State) : (clearErrors s).ctr = s.ctr := rfl
@[simp] theorem clearErrors_cvalid (s : State) : (clearErrors s).cvalid = s.cvalid := rfl
@[simp] theorem clearErrors_ks (s : State) : (clearErrors s).ks = s.ks := rfl
@[simp] theorem clearErrors_kidx (s : State) : (clearErrors s).kidx = s.kidx := rfl
@[simp] theorem clearErrors_fpos (s : State) : (clearErrors s).fpos = s.fpos := rfl
@[simp] theorem clearErrors_flo (s : State) : (clearErrors s).flo = s.flo := rfl
@[simp] theorem clearErrors_fpm (s : State) : (clearErrors s).fpm = s.fpm := rfl
@[simp] theorem clearErrors_eIll (s : State) : (clearErrors s).eIll = false := rfl
@[simp] theorem clearErrors_eNokey (s : State) : (clearErrors s).eNokey = false := rfl
@[simp] theorem clearErrors_eNoctr (s : State) : (clearErrors s).eNoctr = false := rfl
@[simp] theorem clearErrors_eKlock (s : State) : (clearErrors s).eKlock = false := rfl
@[simp] theorem clearErrors_eShort (s : State) : (clearErrors s).eShort = false := rfl
@[simp] theorem clearErrors_lcause (s : State) : (clearErrors s).lcause = 0 := rfl
@[simp] theorem clearErrors_ctrInc (s : State) : (clearErrors s).ctrInc = s.ctrInc := rfl
@[simp] theorem clearErrors_inbox (s : State) : (clearErrors s).inbox = s.inbox := rfl
@[simp] theorem clearErrors_outbox (s : State) : (clearErrors s).outbox = s.outbox := rfl

@[simp] theorem writeKey_key (idx : BitVec 4) (byte : Byte) (s : State) : (writeKey idx byte s).key = s.key.set idx.toNat byte := rfl
@[simp] theorem writeKey_klock (idx : BitVec 4) (byte : Byte) (s : State) : (writeKey idx byte s).klock = s.klock := rfl
@[simp] theorem writeKey_ctr (idx : BitVec 4) (byte : Byte) (s : State) : (writeKey idx byte s).ctr = s.ctr := rfl
@[simp] theorem writeKey_cvalid (idx : BitVec 4) (byte : Byte) (s : State) : (writeKey idx byte s).cvalid = s.cvalid := rfl
@[simp] theorem writeKey_ks (idx : BitVec 4) (byte : Byte) (s : State) : (writeKey idx byte s).ks = s.ks := rfl
@[simp] theorem writeKey_kidx (idx : BitVec 4) (byte : Byte) (s : State) : (writeKey idx byte s).kidx = s.kidx := rfl
@[simp] theorem writeKey_fpos (idx : BitVec 4) (byte : Byte) (s : State) : (writeKey idx byte s).fpos = s.fpos := rfl
@[simp] theorem writeKey_flo (idx : BitVec 4) (byte : Byte) (s : State) : (writeKey idx byte s).flo = s.flo := rfl
@[simp] theorem writeKey_fpm (idx : BitVec 4) (byte : Byte) (s : State) : (writeKey idx byte s).fpm = s.fpm := rfl
@[simp] theorem writeKey_eIll (idx : BitVec 4) (byte : Byte) (s : State) : (writeKey idx byte s).eIll = s.eIll := rfl
@[simp] theorem writeKey_eNokey (idx : BitVec 4) (byte : Byte) (s : State) : (writeKey idx byte s).eNokey = s.eNokey := rfl
@[simp] theorem writeKey_eNoctr (idx : BitVec 4) (byte : Byte) (s : State) : (writeKey idx byte s).eNoctr = s.eNoctr := rfl
@[simp] theorem writeKey_eKlock (idx : BitVec 4) (byte : Byte) (s : State) : (writeKey idx byte s).eKlock = s.eKlock := rfl
@[simp] theorem writeKey_eShort (idx : BitVec 4) (byte : Byte) (s : State) : (writeKey idx byte s).eShort = s.eShort := rfl
@[simp] theorem writeKey_lcause (idx : BitVec 4) (byte : Byte) (s : State) : (writeKey idx byte s).lcause = s.lcause := rfl
@[simp] theorem writeKey_ctrInc (idx : BitVec 4) (byte : Byte) (s : State) : (writeKey idx byte s).ctrInc = s.ctrInc := rfl
@[simp] theorem writeKey_inbox (idx : BitVec 4) (byte : Byte) (s : State) : (writeKey idx byte s).inbox = s.inbox := rfl
@[simp] theorem writeKey_outbox (idx : BitVec 4) (byte : Byte) (s : State) : (writeKey idx byte s).outbox = s.outbox := rfl

@[simp] theorem lockKey_key (s : State) : (lockKey s).key = s.key := rfl
@[simp] theorem lockKey_klock (s : State) : (lockKey s).klock = true := rfl
@[simp] theorem lockKey_ctr (s : State) : (lockKey s).ctr = s.ctr := rfl
@[simp] theorem lockKey_cvalid (s : State) : (lockKey s).cvalid = s.cvalid := rfl
@[simp] theorem lockKey_ks (s : State) : (lockKey s).ks = s.ks := rfl
@[simp] theorem lockKey_kidx (s : State) : (lockKey s).kidx = s.kidx := rfl
@[simp] theorem lockKey_fpos (s : State) : (lockKey s).fpos = s.fpos := rfl
@[simp] theorem lockKey_flo (s : State) : (lockKey s).flo = s.flo := rfl
@[simp] theorem lockKey_fpm (s : State) : (lockKey s).fpm = s.fpm := rfl
@[simp] theorem lockKey_eIll (s : State) : (lockKey s).eIll = s.eIll := rfl
@[simp] theorem lockKey_eNokey (s : State) : (lockKey s).eNokey = s.eNokey := rfl
@[simp] theorem lockKey_eNoctr (s : State) : (lockKey s).eNoctr = s.eNoctr := rfl
@[simp] theorem lockKey_eKlock (s : State) : (lockKey s).eKlock = s.eKlock := rfl
@[simp] theorem lockKey_eShort (s : State) : (lockKey s).eShort = s.eShort := rfl
@[simp] theorem lockKey_lcause (s : State) : (lockKey s).lcause = s.lcause := rfl
@[simp] theorem lockKey_ctrInc (s : State) : (lockKey s).ctrInc = s.ctrInc := rfl
@[simp] theorem lockKey_inbox (s : State) : (lockKey s).inbox = s.inbox := rfl
@[simp] theorem lockKey_outbox (s : State) : (lockKey s).outbox = s.outbox := rfl

@[simp] theorem setFpm_key (b : Bool) (s : State) : (setFpm b s).key = s.key := rfl
@[simp] theorem setFpm_klock (b : Bool) (s : State) : (setFpm b s).klock = s.klock := rfl
@[simp] theorem setFpm_ctr (b : Bool) (s : State) : (setFpm b s).ctr = s.ctr := rfl
@[simp] theorem setFpm_cvalid (b : Bool) (s : State) : (setFpm b s).cvalid = s.cvalid := rfl
@[simp] theorem setFpm_ks (b : Bool) (s : State) : (setFpm b s).ks = s.ks := rfl
@[simp] theorem setFpm_kidx (b : Bool) (s : State) : (setFpm b s).kidx = s.kidx := rfl
@[simp] theorem setFpm_fpos (b : Bool) (s : State) : (setFpm b s).fpos = s.fpos := rfl
@[simp] theorem setFpm_flo (b : Bool) (s : State) : (setFpm b s).flo = s.flo := rfl
@[simp] theorem setFpm_fpm (b : Bool) (s : State) : (setFpm b s).fpm = b := rfl
@[simp] theorem setFpm_eIll (b : Bool) (s : State) : (setFpm b s).eIll = s.eIll := rfl
@[simp] theorem setFpm_eNokey (b : Bool) (s : State) : (setFpm b s).eNokey = s.eNokey := rfl
@[simp] theorem setFpm_eNoctr (b : Bool) (s : State) : (setFpm b s).eNoctr = s.eNoctr := rfl
@[simp] theorem setFpm_eKlock (b : Bool) (s : State) : (setFpm b s).eKlock = s.eKlock := rfl
@[simp] theorem setFpm_eShort (b : Bool) (s : State) : (setFpm b s).eShort = s.eShort := rfl
@[simp] theorem setFpm_lcause (b : Bool) (s : State) : (setFpm b s).lcause = s.lcause := rfl
@[simp] theorem setFpm_ctrInc (b : Bool) (s : State) : (setFpm b s).ctrInc = s.ctrInc := rfl
@[simp] theorem setFpm_inbox (b : Bool) (s : State) : (setFpm b s).inbox = s.inbox := rfl
@[simp] theorem setFpm_outbox (b : Bool) (s : State) : (setFpm b s).outbox = s.outbox := rfl

@[simp] theorem setFlo_key (b : Byte) (s : State) : (setFlo b s).key = s.key := rfl
@[simp] theorem setFlo_klock (b : Byte) (s : State) : (setFlo b s).klock = s.klock := rfl
@[simp] theorem setFlo_ctr (b : Byte) (s : State) : (setFlo b s).ctr = s.ctr := rfl
@[simp] theorem setFlo_cvalid (b : Byte) (s : State) : (setFlo b s).cvalid = s.cvalid := rfl
@[simp] theorem setFlo_ks (b : Byte) (s : State) : (setFlo b s).ks = s.ks := rfl
@[simp] theorem setFlo_kidx (b : Byte) (s : State) : (setFlo b s).kidx = s.kidx := rfl
@[simp] theorem setFlo_fpos (b : Byte) (s : State) : (setFlo b s).fpos = s.fpos := rfl
@[simp] theorem setFlo_flo (b : Byte) (s : State) : (setFlo b s).flo = b := rfl
@[simp] theorem setFlo_fpm (b : Byte) (s : State) : (setFlo b s).fpm = s.fpm := rfl
@[simp] theorem setFlo_eIll (b : Byte) (s : State) : (setFlo b s).eIll = s.eIll := rfl
@[simp] theorem setFlo_eNokey (b : Byte) (s : State) : (setFlo b s).eNokey = s.eNokey := rfl
@[simp] theorem setFlo_eNoctr (b : Byte) (s : State) : (setFlo b s).eNoctr = s.eNoctr := rfl
@[simp] theorem setFlo_eKlock (b : Byte) (s : State) : (setFlo b s).eKlock = s.eKlock := rfl
@[simp] theorem setFlo_eShort (b : Byte) (s : State) : (setFlo b s).eShort = s.eShort := rfl
@[simp] theorem setFlo_lcause (b : Byte) (s : State) : (setFlo b s).lcause = s.lcause := rfl
@[simp] theorem setFlo_ctrInc (b : Byte) (s : State) : (setFlo b s).ctrInc = s.ctrInc := rfl
@[simp] theorem setFlo_inbox (b : Byte) (s : State) : (setFlo b s).inbox = s.inbox := rfl
@[simp] theorem setFlo_outbox (b : Byte) (s : State) : (setFlo b s).outbox = s.outbox := rfl

@[simp] theorem setFpos_key (p : Fin 9) (s : State) : (setFpos p s).key = s.key := rfl
@[simp] theorem setFpos_klock (p : Fin 9) (s : State) : (setFpos p s).klock = s.klock := rfl
@[simp] theorem setFpos_ctr (p : Fin 9) (s : State) : (setFpos p s).ctr = s.ctr := rfl
@[simp] theorem setFpos_cvalid (p : Fin 9) (s : State) : (setFpos p s).cvalid = s.cvalid := rfl
@[simp] theorem setFpos_ks (p : Fin 9) (s : State) : (setFpos p s).ks = s.ks := rfl
@[simp] theorem setFpos_kidx (p : Fin 9) (s : State) : (setFpos p s).kidx = s.kidx := rfl
@[simp] theorem setFpos_fpos (p : Fin 9) (s : State) : (setFpos p s).fpos = p := rfl
@[simp] theorem setFpos_flo (p : Fin 9) (s : State) : (setFpos p s).flo = s.flo := rfl
@[simp] theorem setFpos_fpm (p : Fin 9) (s : State) : (setFpos p s).fpm = s.fpm := rfl
@[simp] theorem setFpos_eIll (p : Fin 9) (s : State) : (setFpos p s).eIll = s.eIll := rfl
@[simp] theorem setFpos_eNokey (p : Fin 9) (s : State) : (setFpos p s).eNokey = s.eNokey := rfl
@[simp] theorem setFpos_eNoctr (p : Fin 9) (s : State) : (setFpos p s).eNoctr = s.eNoctr := rfl
@[simp] theorem setFpos_eKlock (p : Fin 9) (s : State) : (setFpos p s).eKlock = s.eKlock := rfl
@[simp] theorem setFpos_eShort (p : Fin 9) (s : State) : (setFpos p s).eShort = s.eShort := rfl
@[simp] theorem setFpos_lcause (p : Fin 9) (s : State) : (setFpos p s).lcause = s.lcause := rfl
@[simp] theorem setFpos_ctrInc (p : Fin 9) (s : State) : (setFpos p s).ctrInc = s.ctrInc := rfl
@[simp] theorem setFpos_inbox (p : Fin 9) (s : State) : (setFpos p s).inbox = s.inbox := rfl
@[simp] theorem setFpos_outbox (p : Fin 9) (s : State) : (setFpos p s).outbox = s.outbox := rfl

@[simp] theorem endFrame_key (s : State) : (endFrame s).key = s.key := rfl
@[simp] theorem endFrame_klock (s : State) : (endFrame s).klock = s.klock := rfl
@[simp] theorem endFrame_ctr (s : State) : (endFrame s).ctr = s.ctr := rfl
@[simp] theorem endFrame_cvalid (s : State) : (endFrame s).cvalid = false := rfl
@[simp] theorem endFrame_ks (s : State) : (endFrame s).ks = s.ks := rfl
@[simp] theorem endFrame_kidx (s : State) : (endFrame s).kidx = 16 := rfl
@[simp] theorem endFrame_fpos (s : State) : (endFrame s).fpos = 0 := rfl
@[simp] theorem endFrame_flo (s : State) : (endFrame s).flo = 0 := rfl
@[simp] theorem endFrame_fpm (s : State) : (endFrame s).fpm = s.fpm := rfl
@[simp] theorem endFrame_eIll (s : State) : (endFrame s).eIll = s.eIll := rfl
@[simp] theorem endFrame_eNokey (s : State) : (endFrame s).eNokey = s.eNokey := rfl
@[simp] theorem endFrame_eNoctr (s : State) : (endFrame s).eNoctr = s.eNoctr := rfl
@[simp] theorem endFrame_eKlock (s : State) : (endFrame s).eKlock = s.eKlock := rfl
@[simp] theorem endFrame_eShort (s : State) : (endFrame s).eShort = s.eShort := rfl
@[simp] theorem endFrame_lcause (s : State) : (endFrame s).lcause = s.lcause := rfl
@[simp] theorem endFrame_ctrInc (s : State) : (endFrame s).ctrInc = s.ctrInc := rfl
@[simp] theorem endFrame_inbox (s : State) : (endFrame s).inbox = s.inbox := rfl
@[simp] theorem endFrame_outbox (s : State) : (endFrame s).outbox = s.outbox := rfl

@[simp] theorem setInbox_key (rest : List HostEvent) (s : State) : (setInbox rest s).key = s.key := rfl
@[simp] theorem setInbox_klock (rest : List HostEvent) (s : State) : (setInbox rest s).klock = s.klock := rfl
@[simp] theorem setInbox_ctr (rest : List HostEvent) (s : State) : (setInbox rest s).ctr = s.ctr := rfl
@[simp] theorem setInbox_cvalid (rest : List HostEvent) (s : State) : (setInbox rest s).cvalid = s.cvalid := rfl
@[simp] theorem setInbox_ks (rest : List HostEvent) (s : State) : (setInbox rest s).ks = s.ks := rfl
@[simp] theorem setInbox_kidx (rest : List HostEvent) (s : State) : (setInbox rest s).kidx = s.kidx := rfl
@[simp] theorem setInbox_fpos (rest : List HostEvent) (s : State) : (setInbox rest s).fpos = s.fpos := rfl
@[simp] theorem setInbox_flo (rest : List HostEvent) (s : State) : (setInbox rest s).flo = s.flo := rfl
@[simp] theorem setInbox_fpm (rest : List HostEvent) (s : State) : (setInbox rest s).fpm = s.fpm := rfl
@[simp] theorem setInbox_eIll (rest : List HostEvent) (s : State) : (setInbox rest s).eIll = s.eIll := rfl
@[simp] theorem setInbox_eNokey (rest : List HostEvent) (s : State) : (setInbox rest s).eNokey = s.eNokey := rfl
@[simp] theorem setInbox_eNoctr (rest : List HostEvent) (s : State) : (setInbox rest s).eNoctr = s.eNoctr := rfl
@[simp] theorem setInbox_eKlock (rest : List HostEvent) (s : State) : (setInbox rest s).eKlock = s.eKlock := rfl
@[simp] theorem setInbox_eShort (rest : List HostEvent) (s : State) : (setInbox rest s).eShort = s.eShort := rfl
@[simp] theorem setInbox_lcause (rest : List HostEvent) (s : State) : (setInbox rest s).lcause = s.lcause := rfl
@[simp] theorem setInbox_ctrInc (rest : List HostEvent) (s : State) : (setInbox rest s).ctrInc = s.ctrInc := rfl
@[simp] theorem setInbox_inbox (rest : List HostEvent) (s : State) : (setInbox rest s).inbox = rest := rfl
@[simp] theorem setInbox_outbox (rest : List HostEvent) (s : State) : (setInbox rest s).outbox = s.outbox := rfl

@[simp] theorem applyReset_key (s : State) : (applyReset s).key = State.reset.key := rfl
@[simp] theorem applyReset_klock (s : State) : (applyReset s).klock = State.reset.klock := rfl
@[simp] theorem applyReset_ctr (s : State) : (applyReset s).ctr = State.reset.ctr := rfl
@[simp] theorem applyReset_cvalid (s : State) : (applyReset s).cvalid = State.reset.cvalid := rfl
@[simp] theorem applyReset_ks (s : State) : (applyReset s).ks = State.reset.ks := rfl
@[simp] theorem applyReset_kidx (s : State) : (applyReset s).kidx = State.reset.kidx := rfl
@[simp] theorem applyReset_fpos (s : State) : (applyReset s).fpos = State.reset.fpos := rfl
@[simp] theorem applyReset_flo (s : State) : (applyReset s).flo = State.reset.flo := rfl
@[simp] theorem applyReset_fpm (s : State) : (applyReset s).fpm = State.reset.fpm := rfl
@[simp] theorem applyReset_eIll (s : State) : (applyReset s).eIll = State.reset.eIll := rfl
@[simp] theorem applyReset_eNokey (s : State) : (applyReset s).eNokey = State.reset.eNokey := rfl
@[simp] theorem applyReset_eNoctr (s : State) : (applyReset s).eNoctr = State.reset.eNoctr := rfl
@[simp] theorem applyReset_eKlock (s : State) : (applyReset s).eKlock = State.reset.eKlock := rfl
@[simp] theorem applyReset_eShort (s : State) : (applyReset s).eShort = State.reset.eShort := rfl
@[simp] theorem applyReset_lcause (s : State) : (applyReset s).lcause = State.reset.lcause := rfl
@[simp] theorem applyReset_ctrInc (s : State) : (applyReset s).ctrInc = s.ctrInc := rfl
@[simp] theorem applyReset_inbox (s : State) : (applyReset s).inbox = s.inbox := rfl
@[simp] theorem applyReset_outbox (s : State) : (applyReset s).outbox = s.outbox := rfl

@[simp] theorem loadSeed_key (v : Seed) (s : State) : (loadSeed v s).key = s.key := rfl
@[simp] theorem loadSeed_klock (v : Seed) (s : State) : (loadSeed v s).klock = s.klock := rfl
@[simp] theorem loadSeed_ctr (v : Seed) (s : State) : (loadSeed v s).ctr = nonceExpand v := rfl
@[simp] theorem loadSeed_cvalid (v : Seed) (s : State) : (loadSeed v s).cvalid = true := rfl
@[simp] theorem loadSeed_ks (v : Seed) (s : State) : (loadSeed v s).ks = s.ks := rfl
@[simp] theorem loadSeed_kidx (v : Seed) (s : State) : (loadSeed v s).kidx = 16 := rfl
@[simp] theorem loadSeed_fpos (v : Seed) (s : State) : (loadSeed v s).fpos = s.fpos := rfl
@[simp] theorem loadSeed_flo (v : Seed) (s : State) : (loadSeed v s).flo = s.flo := rfl
@[simp] theorem loadSeed_fpm (v : Seed) (s : State) : (loadSeed v s).fpm = s.fpm := rfl
@[simp] theorem loadSeed_eIll (v : Seed) (s : State) : (loadSeed v s).eIll = s.eIll := rfl
@[simp] theorem loadSeed_eNokey (v : Seed) (s : State) : (loadSeed v s).eNokey = s.eNokey := rfl
@[simp] theorem loadSeed_eNoctr (v : Seed) (s : State) : (loadSeed v s).eNoctr = s.eNoctr := rfl
@[simp] theorem loadSeed_eKlock (v : Seed) (s : State) : (loadSeed v s).eKlock = s.eKlock := rfl
@[simp] theorem loadSeed_eShort (v : Seed) (s : State) : (loadSeed v s).eShort = s.eShort := rfl
@[simp] theorem loadSeed_lcause (v : Seed) (s : State) : (loadSeed v s).lcause = s.lcause := rfl
@[simp] theorem loadSeed_ctrInc (v : Seed) (s : State) : (loadSeed v s).ctrInc = s.ctrInc := rfl
@[simp] theorem loadSeed_inbox (v : Seed) (s : State) : (loadSeed v s).inbox = s.inbox := rfl
@[simp] theorem loadSeed_outbox (v : Seed) (s : State) : (loadSeed v s).outbox = s.outbox := rfl

@[simp] theorem generateBlock_key (s : State) : (generateBlock s).key = s.key := rfl
@[simp] theorem generateBlock_klock (s : State) : (generateBlock s).klock = s.klock := rfl
@[simp] theorem generateBlock_ctr (s : State) : (generateBlock s).ctr = inc s.ctrInc s.ctr := rfl
@[simp] theorem generateBlock_cvalid (s : State) : (generateBlock s).cvalid = s.cvalid := rfl
@[simp] theorem generateBlock_ks (s : State) : (generateBlock s).ks = aes128 s.key s.ctr := rfl
@[simp] theorem generateBlock_kidx (s : State) : (generateBlock s).kidx = 0 := rfl
@[simp] theorem generateBlock_fpos (s : State) : (generateBlock s).fpos = s.fpos := rfl
@[simp] theorem generateBlock_flo (s : State) : (generateBlock s).flo = s.flo := rfl
@[simp] theorem generateBlock_fpm (s : State) : (generateBlock s).fpm = s.fpm := rfl
@[simp] theorem generateBlock_eIll (s : State) : (generateBlock s).eIll = s.eIll := rfl
@[simp] theorem generateBlock_eNokey (s : State) : (generateBlock s).eNokey = s.eNokey := rfl
@[simp] theorem generateBlock_eNoctr (s : State) : (generateBlock s).eNoctr = s.eNoctr := rfl
@[simp] theorem generateBlock_eKlock (s : State) : (generateBlock s).eKlock = s.eKlock := rfl
@[simp] theorem generateBlock_eShort (s : State) : (generateBlock s).eShort = s.eShort := rfl
@[simp] theorem generateBlock_lcause (s : State) : (generateBlock s).lcause = s.lcause := rfl
@[simp] theorem generateBlock_ctrInc (s : State) : (generateBlock s).ctrInc = s.ctrInc := rfl
@[simp] theorem generateBlock_inbox (s : State) : (generateBlock s).inbox = s.inbox := rfl
@[simp] theorem generateBlock_outbox (s : State) : (generateBlock s).outbox = s.outbox := rfl

@[simp] theorem consume_key (i : Fin 16) (s : State) : (consume i s).key = s.key := rfl
@[simp] theorem consume_klock (i : Fin 16) (s : State) : (consume i s).klock = s.klock := rfl
@[simp] theorem consume_ctr (i : Fin 16) (s : State) : (consume i s).ctr = s.ctr := rfl
@[simp] theorem consume_cvalid (i : Fin 16) (s : State) : (consume i s).cvalid = s.cvalid := rfl
@[simp] theorem consume_ks (i : Fin 16) (s : State) : (consume i s).ks = s.ks := rfl
@[simp] theorem consume_kidx (i : Fin 16) (s : State) : (consume i s).kidx = i.succ := rfl
@[simp] theorem consume_fpos (i : Fin 16) (s : State) : (consume i s).fpos = s.fpos := rfl
@[simp] theorem consume_flo (i : Fin 16) (s : State) : (consume i s).flo = s.flo := rfl
@[simp] theorem consume_fpm (i : Fin 16) (s : State) : (consume i s).fpm = s.fpm := rfl
@[simp] theorem consume_eIll (i : Fin 16) (s : State) : (consume i s).eIll = s.eIll := rfl
@[simp] theorem consume_eNokey (i : Fin 16) (s : State) : (consume i s).eNokey = s.eNokey := rfl
@[simp] theorem consume_eNoctr (i : Fin 16) (s : State) : (consume i s).eNoctr = s.eNoctr := rfl
@[simp] theorem consume_eKlock (i : Fin 16) (s : State) : (consume i s).eKlock = s.eKlock := rfl
@[simp] theorem consume_eShort (i : Fin 16) (s : State) : (consume i s).eShort = s.eShort := rfl
@[simp] theorem consume_lcause (i : Fin 16) (s : State) : (consume i s).lcause = s.lcause := rfl
@[simp] theorem consume_ctrInc (i : Fin 16) (s : State) : (consume i s).ctrInc = s.ctrInc := rfl
@[simp] theorem consume_inbox (i : Fin 16) (s : State) : (consume i s).inbox = s.inbox := rfl
@[simp] theorem consume_outbox (i : Fin 16) (s : State) : (consume i s).outbox = s.outbox := rfl

end Sys2Proof.Machine
end

