-- ==== Sys2Proof/Laws/Ops.lean ====
section
/-! SUPPORT. What each shared operation can do, said once: the keystream byte, the decryption of one byte, and the effect of
a header byte by its position. -/

namespace Sys2Proof.Machine

/-- With a byte buffered, byte `KIDX` is taken. -/
theorem keystreamByte_of_lt (s : State) (h : s.kidx.val < 16) :
    keystreamByte s = (s.ks[s.kidx.val], consume ⟨s.kidx.val, h⟩ s) := by
  simp [keystreamByte, h, takeByte]

/-- With the buffer empty, a block is generated and its byte 0 is taken. -/
theorem keystreamByte_of_empty (s : State) (h : s.kidx.val = 16) :
    keystreamByte s = ((aes128 s.key s.ctr)[0], consume 0 (generateBlock s)) := by
  simp [keystreamByte, h, takeByte]

/-- The buffer either holds a byte or is empty. -/
theorem kidx_cases (s : State) : s.kidx.val < 16 ∨ s.kidx.val = 16 := by
  have := s.kidx.isLt
  omega

@[simp] theorem keystreamByte_key (s : State) : (keystreamByte s).2.key = s.key := by
  unfold keystreamByte
  split <;> rfl

@[simp] theorem keystreamByte_klock (s : State) : (keystreamByte s).2.klock = s.klock := by
  unfold keystreamByte
  split <;> rfl

@[simp] theorem keystreamByte_cvalid (s : State) : (keystreamByte s).2.cvalid = s.cvalid := by
  unfold keystreamByte
  split <;> rfl

@[simp] theorem keystreamByte_fpos (s : State) : (keystreamByte s).2.fpos = s.fpos := by
  unfold keystreamByte
  split <;> rfl

@[simp] theorem keystreamByte_flo (s : State) : (keystreamByte s).2.flo = s.flo := by
  unfold keystreamByte
  split <;> rfl

@[simp] theorem keystreamByte_fpm (s : State) : (keystreamByte s).2.fpm = s.fpm := by
  unfold keystreamByte
  split <;> rfl

@[simp] theorem keystreamByte_eIll (s : State) : (keystreamByte s).2.eIll = s.eIll := by
  unfold keystreamByte
  split <;> rfl

@[simp] theorem keystreamByte_eNokey (s : State) : (keystreamByte s).2.eNokey = s.eNokey := by
  unfold keystreamByte
  split <;> rfl

@[simp] theorem keystreamByte_eNoctr (s : State) : (keystreamByte s).2.eNoctr = s.eNoctr := by
  unfold keystreamByte
  split <;> rfl

@[simp] theorem keystreamByte_eKlock (s : State) : (keystreamByte s).2.eKlock = s.eKlock := by
  unfold keystreamByte
  split <;> rfl

@[simp] theorem keystreamByte_eShort (s : State) : (keystreamByte s).2.eShort = s.eShort := by
  unfold keystreamByte
  split <;> rfl

@[simp] theorem keystreamByte_lcause (s : State) : (keystreamByte s).2.lcause = s.lcause := by
  unfold keystreamByte
  split <;> rfl

@[simp] theorem keystreamByte_ctrInc (s : State) : (keystreamByte s).2.ctrInc = s.ctrInc := by
  unfold keystreamByte
  split <;> rfl

@[simp] theorem keystreamByte_inbox (s : State) : (keystreamByte s).2.inbox = s.inbox := by
  unfold keystreamByte
  split <;> rfl

@[simp] theorem keystreamByte_outbox (s : State) : (keystreamByte s).2.outbox = s.outbox := by
  unfold keystreamByte
  split <;> rfl

/-- Without a locked key a byte is refused `NOKEY`. -/
theorem decryptByte_nokey (byte : Byte) (s : State) (h : s.klock = false) : decryptByte byte s = refuse .nokey s := by
  simp [decryptByte, h]

/-- With the key locked and no counter a byte is refused `NOCTR`. -/
theorem decryptByte_noctr (byte : Byte) (s : State) (h : s.klock = true) (hc : s.cvalid = false) :
    decryptByte byte s = refuse .noctr s := by
  simp [decryptByte, h, hc]

/-- With the key locked and the counter valid a byte is decrypted. -/
theorem decryptByte_accepted (byte : Byte) (s : State) (h : s.klock = true) (hc : s.cvalid = true) :
    decryptByte byte s = acceptData (byte ^^^ (keystreamByte s).1) (keystreamByte s).2 := by
  simp [decryptByte, h, hc]

/-- All that decrypting a byte can do. -/
theorem decryptByte_cases (byte : Byte) (s : State) :
    (s.klock = false ∧ decryptByte byte s = refuse .nokey s) ∨
    (s.klock = true ∧ s.cvalid = false ∧ decryptByte byte s = refuse .noctr s) ∨
    (s.klock = true ∧ s.cvalid = true ∧
      decryptByte byte s = acceptData (byte ^^^ (keystreamByte s).1) (keystreamByte s).2) := by
  cases hk : s.klock
  · exact .inl ⟨rfl, decryptByte_nokey byte s hk⟩
  · cases hc : s.cvalid
    · exact .inr (.inl ⟨rfl, rfl, decryptByte_noctr byte s hk hc⟩)
    · exact .inr (.inr ⟨rfl, rfl, decryptByte_accepted byte s hk hc⟩)

/-- All that a header byte can do, by its position; only position 0 is a start of frame. -/
theorem headerByte_cases (byte : Byte) (s : State) (h : s.fpos.val < 8) :
    (s.fpos = 0 ∧ headerByte byte (startFrame s) = setFpm false s) ∨
    (0 < s.fpos.val ∧ s.fpos.val < 5 ∧ headerByte byte (startFrame s) = s) ∨
    (s.fpos.val = 5 ∧ headerByte byte (startFrame s) = setFlo byte s) ∨
    (s.fpos.val = 6 ∧ headerByte byte (startFrame s) = loadSeed (seedOfBytes s.flo byte) s) ∨
    (s.fpos.val = 7 ∧ headerByte byte (startFrame s) = setFpm (decide (byte ≠ s.key[0])) s) := by
  by_cases h0 : s.fpos = 0
  · left
    simp [startFrame, headerByte, h0, Config.seedOffset, Config.fpOffset]
  · have hne : s.fpos.val ≠ 0 := fun e => h0 (Fin.ext e)
    have hs : startFrame s = s := by simp [startFrame, h0]
    rw [hs]
    right
    by_cases h5 : s.fpos.val < 5
    · refine .inl ⟨by omega, h5, ?_⟩
      simp [headerByte, Config.seedOffset, Config.fpOffset, show s.fpos.val ≠ 5 by omega, show s.fpos.val ≠ 6 by omega,
        show s.fpos.val ≠ 7 by omega]
    · have : s.fpos.val = 5 ∨ s.fpos.val = 6 ∨ s.fpos.val = 7 := by omega
      rcases this with e | e | e
      · exact .inr (.inl ⟨e, by simp [headerByte, Config.seedOffset, e]⟩)
      · exact .inr (.inr (.inl ⟨e, by simp [headerByte, Config.seedOffset, e]⟩))
      · exact .inr (.inr (.inr ⟨e, by simp [headerByte, Config.seedOffset, Config.fpOffset, e]⟩))

/-- A frame is short exactly when `0 < FPOS < CT_OFFSET`. -/
theorem frameShort_eq_true (s : State) : frameShort s = true ↔ 0 < s.fpos.val ∧ s.fpos.val < 8 := by
  have h0 : s.fpos ≠ 0 ↔ s.fpos.val ≠ 0 := by rw [Ne, Fin.ext_iff]; rfl
  simp only [frameShort, Bool.and_eq_true, decide_eq_true_eq, h0, Config.ctOffset]
  omega

end Sys2Proof.Machine
end

