-- ==== Sys2Proof/Laws/Exec.lean ====
section
/-! SUPPORT. Each command's effect in terms of the shared operations, the step by the event it takes, and the shape all
commands share: one response after the command's writes. -/

namespace Sys2Proof.Machine

theorem execKeyb_unlocked (idx : BitVec 4) (byte : Byte) (s : State) (h : s.klock = false) :
    exec (.keyb idx byte) s = .next (accept (writeKey idx byte s)) := by
  simp [exec, execKeyb, h]

theorem execKeyb_locked (idx : BitVec 4) (byte : Byte) (s : State) (h : s.klock = true) :
    exec (.keyb idx byte) s = .next (refuse .keylocked s) := by
  simp [exec, execKeyb, h]

theorem execKeylock_unlocked (s : State) (h : s.klock = false) : exec .keylock s = .next (accept (lockKey s)) := by
  simp [exec, execKeylock, h]

theorem execKeylock_locked (s : State) (h : s.klock = true) : exec .keylock s = .next (refuse .keylocked s) := by
  simp [exec, execKeylock, h]

theorem execFrameb_header (byte : Byte) (s : State) (h : s.fpos.val < 8) :
    exec (.frameb byte) s =
      .next (accept (setFpos ⟨s.fpos.val + 1, Nat.succ_lt_succ h⟩ (headerByte byte (startFrame s)))) := by
  simp only [exec, execFrameb]
  rw [dif_pos (show s.fpos.val < Config.ctOffset from h)]

theorem execFrameb_ciphertext (byte : Byte) (s : State) (h : s.fpos.val = 8) :
    exec (.frameb byte) s = .next (decryptByte byte s) := by
  simp only [exec, execFrameb]
  rw [dif_neg (show ¬ s.fpos.val < Config.ctOffset by rw [h]; decide)]

theorem execFrameend_short (s : State) (h : frameShort s = true) : exec .frameend s = .next (refuse .short (endFrame s)) := by
  simp [exec, execFrameend, h]

theorem execFrameend_accepted (s : State) (h : frameShort s = false) : exec .frameend s = .next (accept (endFrame s)) := by
  simp [exec, execFrameend, h]

/-- `FPOS` is inside the header or at the ciphertext. -/
theorem fpos_cases (s : State) : s.fpos.val < 8 ∨ s.fpos.val = 8 := by
  have := s.fpos.isLt
  omega

/-- The shape every command shares: its writes, which leave the parameter and both streams alone, then one response, which
carries no data byte unless `DV = 1` and has `DV = 0` when refused. -/
theorem exec_responds (i : Instr) (s : State) :
    ∃ (acc dv : Bool) (data : Byte) (t : State), exec i s = .next (respond acc dv data t) ∧ t.ctrInc = s.ctrInc ∧
      t.inbox = s.inbox ∧ t.outbox = s.outbox ∧ (dv = false → data = 0) ∧ (acc = false → dv = false) := by
  have plain : ∀ t : State, t.ctrInc = s.ctrInc → t.inbox = s.inbox → t.outbox = s.outbox →
      ∃ (acc dv : Bool) (data : Byte) (u : State), (Host.Outcome.next (accept t) : Result) = .next (respond acc dv data u) ∧
        u.ctrInc = s.ctrInc ∧ u.inbox = s.inbox ∧ u.outbox = s.outbox ∧ (dv = false → data = 0) ∧
        (acc = false → dv = false) :=
    fun t h1 h2 h3 => ⟨true, false, 0, t, rfl, h1, h2, h3, fun _ => rfl, fun _ => rfl⟩
  have refused : ∀ (c : Cause) (t : State), t.ctrInc = s.ctrInc → t.inbox = s.inbox → t.outbox = s.outbox →
      ∃ (acc dv : Bool) (data : Byte) (u : State),
        (Host.Outcome.next (refuse c t) : Result) = .next (respond acc dv data u) ∧
        u.ctrInc = s.ctrInc ∧ u.inbox = s.inbox ∧ u.outbox = s.outbox ∧ (dv = false → data = 0) ∧
        (acc = false → dv = false) :=
    fun c t h1 h2 h3 => ⟨false, false, 0, recordCause c t, rfl, h1, h2, h3, fun _ => rfl, fun _ => rfl⟩
  have data : ∀ b : Byte, ∃ (acc dv : Bool) (data : Byte) (u : State),
        (Host.Outcome.next (decryptByte b s) : Result) = .next (respond acc dv data u) ∧
        u.ctrInc = s.ctrInc ∧ u.inbox = s.inbox ∧ u.outbox = s.outbox ∧ (dv = false → data = 0) ∧
        (acc = false → dv = false) := by
    intro b
    obtain ⟨-, e⟩ | ⟨-, -, e⟩ | ⟨-, -, e⟩ := decryptByte_cases b s <;> rw [e]
    · exact refused _ s rfl rfl rfl
    · exact refused _ s rfl rfl rfl
    · exact ⟨true, true, _, (keystreamByte s).2, rfl, by simp, by simp, by simp, by simp, by simp⟩
  cases i with
  | nop => exact plain s rfl rfl rfl
  | keyb idx byte =>
    cases h : s.klock
    · rw [execKeyb_unlocked _ _ _ h]; exact plain _ rfl rfl rfl
    · rw [execKeyb_locked _ _ _ h]; exact refused _ _ rfl rfl rfl
  | keylock =>
    cases h : s.klock
    · rw [execKeylock_unlocked _ h]; exact plain _ rfl rfl rfl
    · rw [execKeylock_locked _ h]; exact refused _ _ rfl rfl rfl
  | seed v => exact plain (loadSeed v s) rfl rfl rfl
  | xorb byte => exact data byte
  | frameb byte =>
    rcases fpos_cases s with h | h
    · rw [execFrameb_header _ _ h]
      apply plain <;>
        obtain ⟨-, e⟩ | ⟨-, -, e⟩ | ⟨-, e⟩ | ⟨-, e⟩ | ⟨-, e⟩ := headerByte_cases byte s h <;> simp [e]
    · rw [execFrameb_ciphertext _ _ h]; exact data byte
  | frameend =>
    cases h : frameShort s
    · rw [execFrameend_accepted _ h]; exact plain _ rfl rfl rfl
    · rw [execFrameend_short _ h]; exact refused _ _ rfl rfl rfl
  | rdctr idx => exact ⟨true, true, _, s, rfl, rfl, rfl, rfl, by simp, by simp⟩
  | clrerr => exact plain (clearErrors s) rfl rfl rfl

/-- All that a command can do to the state, with what it needs for it. -/
inductive Effect (s : State) : State → Prop where
  /-- NOP. -/
  | polled : Effect s (accept s)
  /-- A refusal that changes the error record alone. -/
  | refused (c : Cause) : Effect s (refuse c s)
  /-- KEYB. -/
  | keyWritten (idx : BitVec 4) (byte : Byte) (h : s.klock = false) : Effect s (accept (writeKey idx byte s))
  /-- KEYLOCK. -/
  | keyFrozen (h : s.klock = false) : Effect s (accept (lockKey s))
  /-- SEED. -/
  | seeded (v : Seed) : Effect s (accept (loadSeed v s))
  /-- XORB, or FRAMEB at position 8. -/
  | decrypted (byte : Byte) (hk : s.klock = true) (hc : s.cvalid = true) :
      Effect s (acceptData (byte ^^^ (keystreamByte s).1) (keystreamByte s).2)
  /-- FRAMEB at position 0. -/
  | frameStarted (h : s.fpos = 0) : Effect s (accept (setFpos 1 (setFpm false s)))
  /-- FRAMEB at positions 1 to 4. -/
  | headerPassed (h0 : 0 < s.fpos.val) (h : s.fpos.val < 5) :
      Effect s (accept (setFpos ⟨s.fpos.val + 1, by omega⟩ s))
  /-- FRAMEB at position 5. -/
  | seedLow (byte : Byte) (h : s.fpos = 5) : Effect s (accept (setFpos 6 (setFlo byte s)))
  /-- FRAMEB at position 6. -/
  | seedHigh (byte : Byte) (h : s.fpos = 6) : Effect s (accept (setFpos 7 (loadSeed (seedOfBytes s.flo byte) s)))
  /-- FRAMEB at position 7. -/
  | fingerprint (byte : Byte) (h : s.fpos = 7) :
      Effect s (accept (setFpos 8 (setFpm (decide (byte ≠ s.key[0])) s)))
  /-- FRAMEEND. -/
  | frameEnded (h : frameShort s = false) : Effect s (accept (endFrame s))
  /-- FRAMEEND of a short frame. -/
  | frameCut (h : frameShort s = true) : Effect s (refuse .short (endFrame s))
  /-- RDCTR. -/
  | counterRead (idx : BitVec 4) : Effect s (acceptData (readCtr idx s) s)
  /-- CLRERR. -/
  | errorsCleared : Effect s (accept (clearErrors s))

theorem decryptByte_effect (byte : Byte) (s : State) : Effect s (decryptByte byte s) := by
  obtain ⟨-, e⟩ | ⟨-, -, e⟩ | ⟨hk, hc, e⟩ := decryptByte_cases byte s <;> rw [e]
  · exact .refused _
  · exact .refused _
  · exact .decrypted _ hk hc

/-- Every command's next state is one of the effects. -/
theorem exec_effect (i : Instr) (s t : State) (e : exec i s = .next t) : Effect s t := by
  cases i with
  | nop => obtain rfl := Host.Outcome.next.inj e; exact .polled
  | keyb idx byte =>
    cases h : s.klock
    · rw [execKeyb_unlocked _ _ _ h] at e; obtain rfl := Host.Outcome.next.inj e; exact .keyWritten _ _ h
    · rw [execKeyb_locked _ _ _ h] at e; obtain rfl := Host.Outcome.next.inj e; exact .refused _
  | keylock =>
    cases h : s.klock
    · rw [execKeylock_unlocked _ h] at e; obtain rfl := Host.Outcome.next.inj e; exact .keyFrozen h
    · rw [execKeylock_locked _ h] at e; obtain rfl := Host.Outcome.next.inj e; exact .refused _
  | seed v => obtain rfl := Host.Outcome.next.inj e; exact .seeded v
  | xorb byte => obtain rfl := Host.Outcome.next.inj e; exact decryptByte_effect byte s
  | frameb byte =>
    rcases fpos_cases s with h | h
    · rw [execFrameb_header _ _ h] at e
      obtain ⟨h0, e'⟩ | ⟨h0, h1, e'⟩ | ⟨h0, e'⟩ | ⟨h0, e'⟩ | ⟨h0, e'⟩ := headerByte_cases byte s h <;>
        rw [e'] at e <;> obtain rfl := Host.Outcome.next.inj e
      · simpa [h0] using Effect.frameStarted h0
      · exact .headerPassed h0 h1
      · simpa [h0] using Effect.seedLow byte (Fin.ext h0)
      · simpa [h0] using Effect.seedHigh byte (Fin.ext h0)
      · simpa [h0] using Effect.fingerprint byte (Fin.ext h0)
    · rw [execFrameb_ciphertext _ _ h] at e
      obtain rfl := Host.Outcome.next.inj e; exact decryptByte_effect byte s
  | frameend =>
    cases h : frameShort s
    · rw [execFrameend_accepted _ h] at e; obtain rfl := Host.Outcome.next.inj e; exact .frameEnded h
    · rw [execFrameend_short _ h] at e; obtain rfl := Host.Outcome.next.inj e; exact .frameCut h
  | rdctr idx => obtain rfl := Host.Outcome.next.inj e; exact .counterRead idx
  | clrerr => obtain rfl := Host.Outcome.next.inj e; exact .errorsCleared

theorem performWord_instr (w : Word) (i : Instr) (s : State) (h : decode w = .instr i) : performWord w s = exec i s := by
  simp [performWord, h]

theorem performWord_illegal (w : Word) (why : IllegalWord) (s : State) (h : decode w = .illegal why) :
    performWord w s = .next (refuse .illegal s) := by
  simp [performWord, h]

/-- A step with an event pending performs it on the state without it. -/
theorem step_of_cons (s : State) (e : HostEvent) (rest : List HostEvent) (h : s.inbox = e :: rest) :
    step s = performEvent e (setInbox rest s) := by
  simp [step, h]

/-- A predicate that the taking of an event, reset, an illegal word and every command's effect keep is kept by every step. -/
theorem step_keeps (P : State → Prop) (hset : ∀ s rest, P s → P (setInbox rest s)) (hrst : ∀ s, P s → P (applyReset s))
    (hill : ∀ s, P s → P (refuse .illegal s)) (heff : ∀ s t, P s → Effect s t → P t)
    (s t : State) (hs : P s) (h : step s = .next t) : P t := by
  cases hb : s.inbox with
  | nil => simp only [step, hb] at h; exact Host.Outcome.next.inj h ▸ hs
  | cons e rest =>
    rw [step_of_cons s _ _ hb] at h
    cases e with
    | rst => obtain rfl := Host.Outcome.next.inj h; exact hrst _ (hset _ _ hs)
    | cmd w =>
      simp only [performEvent] at h
      cases hd : decode w with
      | instr i => rw [performWord_instr w i _ hd] at h; exact heff _ _ (hset _ _ hs) (exec_effect i _ t h)
      | illegal why =>
        rw [performWord_illegal w why _ hd] at h
        obtain rfl := Host.Outcome.next.inj h
        exact hill _ (hset _ _ hs)

end Sys2Proof.Machine
end

