-- ==== Sys2Proof/Laws/PerInstr.lean ====
section
/-! SUPPORT. Statements made per command. Family `MaskMatch`: the word of a command agrees with its row's `match` on its
row's `mask` (30_encoding.md R74). -/

namespace Sys2Proof.Laws.MaskMatch

/-- The encoded word, masked, is the row's match word. -/
def Statement (i : Instr) : Prop := encode i &&& maskWord i = matchWord i

theorem nop : Statement .nop := by
  unfold Statement
  decide

theorem keyb (idx : BitVec 4) (byte : Byte) : Statement (.keyb idx byte) := by
  unfold Statement
  ext j hj
  simp only [encode, maskWord, matchWord, operandBits]
  interval_cases j <;> simp

theorem keylock : Statement .keylock := by
  unfold Statement
  decide

theorem seed (v : Seed) : Statement (.seed v) := by
  unfold Statement
  ext j hj
  simp only [encode, maskWord, matchWord, operandBits]
  interval_cases j <;> simp

theorem xorb (byte : Byte) : Statement (.xorb byte) := by
  unfold Statement
  ext j hj
  simp only [encode, maskWord, matchWord, operandBits]
  interval_cases j <;> simp

theorem frameb (byte : Byte) : Statement (.frameb byte) := by
  unfold Statement
  ext j hj
  simp only [encode, maskWord, matchWord, operandBits]
  interval_cases j <;> simp

theorem frameend : Statement .frameend := by
  unfold Statement
  decide

theorem rdctr (idx : BitVec 4) : Statement (.rdctr idx) := by
  unfold Statement
  ext j hj
  simp only [encode, maskWord, matchWord, operandBits]
  interval_cases j <;> simp

theorem clrerr : Statement .clrerr := by
  unfold Statement
  decide

end Sys2Proof.Laws.MaskMatch
end

