-- ==== Sys2Proof/Laws/Run.lean ====
section
/-! SUPPORT. Runs of the machine, step by step. -/

namespace Sys2Proof.Safety

open Sys2Proof.Machine

/-- No step is no change. -/
theorem run_zero (s : State) : run 0 s = .next s := rfl

/-- A run goes on from the state its first step answers. -/
theorem run_succ_of_step (n : Nat) (s t : State) (h : step s = .next t) : run (n + 1) s = run n t := by
  have h' : Sys2Proof.core.step s = .next t := h
  simp only [run, Host.Core.run, h']
  rfl

/-- A step with the word of a command next executes the command, if the word decodes to it. -/
theorem step_of_cmd (s t : State) (w : Word) (i : Instr) (rest : List HostEvent) (hw : decode w = .instr i)
    (h : s.inbox = .cmd w :: rest) (e : exec i (setInbox rest s) = .next t) : step s = .next t := by
  rw [step_of_cons s _ _ h, performEvent, performWord_instr w i _ hw, e]

theorem issue_nil : issue [] = [] := rfl

theorem issue_cons (i : Instr) (is : List Instr) : issue (i :: is) = .cmd (encode i) :: issue is := rfl

end Sys2Proof.Safety
end

