-- ==== Sys2Proof/Tests/Slice0.lean ====
section
/-! SUPPORT. Tests: words written out from the encodings of 30_encoding.md R72 and R74, single commands with the responses
that 95_test_vectors.md lists, ill-formed lines, and a named witness for the hypotheses of every obligation that has some. -/

namespace Sys2Proof.Tests

open Sys2Proof Sys2Proof.Machine Sys2Proof.Safety

/-! ## Helpers: small states -/

/-- The test key `K` of 95_test_vectors.md. -/
def testKey : Block :=
  #v[0x2b, 0x7e, 0x15, 0x16, 0x28, 0xae, 0xd2, 0xa6, 0xab, 0xf7, 0x15, 0x88, 0x09, 0xcf, 0x4f, 0x3c]

/-- "key loaded and locked" of 95_test_vectors.md. -/
def keyed : State := { State.reset with key := testKey, klock := true }

/-- `keyed` after `SEED 0x1234`, whose counter block is `34 12 00 ...` (95_test_vectors.md 1.2). -/
def seeded : State := { keyed with ctr := #v[0x34, 0x12, 0, 0, 0, 0, 0, 0, 0, 0, 0, 0, 0, 0, 0, 0], cvalid := true }

/-- `seeded` with keystream block 0 of the seed in the buffer, as 95_test_vectors.md 2.8 lists it, and byte `i` next. -/
def buffered (i : Fin 17) : State :=
  { seeded with
    ctr := #v[0x35, 0x12, 0, 0, 0, 0, 0, 0, 0, 0, 0, 0, 0, 0, 0, 0]
    ks := #v[0xfa, 0xc7, 0x58, 0xe6, 0xe7, 0x4f, 0xc9, 0xa7, 0x23, 0xfd, 0x9e, 0x94, 0x1d, 0x8b, 0x9b, 0xe9]
    kidx := i }

/-- `keyed` in a frame at position `p`, with the seed low byte `34` latched. -/
def framed (p : Fin 9) : State := { keyed with fpos := p, flo := 0x34 }

/-- `seeded` in a frame at position `p`, with the seed low byte `34` latched. -/
def framedSeeded (p : Fin 9) : State := { seeded with fpos := p, flo := 0x34 }

/-- The last response after the word `w` is performed in `s`. -/
def answer (w : Word) (s : State) : Option Word :=
  match performWord w s with
  | .next t => t.outbox.getLast?
  | .fault _ => none
  | .refused _ => none

/-- The state after the word `w` is performed in `s`. -/
def after (w : Word) (s : State) : State :=
  match performWord w s with
  | .next t => t
  | .fault _ => s
  | .refused _ => s

/-! ## Decoding: words written out bit by bit (R72, R74) -/

theorem test_decode_nop : decode 0b0000_0000_0000_0000_0000_0000_0000_0000 = .instr .nop := by decide
theorem test_decode_keyb : decode 0b0001_0000_0000_1010_0000_0000_1100_0101 = .instr (.keyb 0xA 0xC5) := by decide
theorem test_decode_keylock : decode 0b0010_0000_0000_0000_0000_0000_0000_0000 = .instr .keylock := by decide
theorem test_decode_seed : decode 0b0011_0000_0000_0000_1000_0000_0000_0001 = .instr (.seed 0x8001) := by decide
theorem test_decode_xorb : decode 0b0100_0000_0000_0000_0000_0000_1000_0001 = .instr (.xorb 0x81) := by decide
theorem test_decode_frameb : decode 0b0101_0000_0000_0000_0000_0000_0111_1110 = .instr (.frameb 0x7E) := by decide
theorem test_decode_frameend : decode 0b0110_0000_0000_0000_0000_0000_0000_0000 = .instr .frameend := by decide
theorem test_decode_rdctr : decode 0b0111_0000_0000_0000_0000_0000_0000_1001 = .instr (.rdctr 9) := by decide
theorem test_decode_clrerr : decode 0b1000_0000_0000_0000_0000_0000_0000_0000 = .instr .clrerr := by decide

/-- V-E2, V-E3, V-E5 to V-E8, V-F13, V-C4: a must-be-zero bit set in each format. -/
theorem test_decode_must_be_zero :
    ([0x00000001, 0x10100100, 0x20000001, 0x30011234, 0x40000100, 0x50000100, 0x60000001, 0x70000010, 0x80000001] :
      List Word).map decode = List.replicate 9 (.illegal .mustBeZero) := by decide

/-- V-E9 to V-E11: a reserved opcode. -/
theorem test_decode_reserved :
    ([0x90000000, 0xF0000000, 0xFFFFFFFF] : List Word).map decode = List.replicate 3 (.illegal .reservedOpcode) := by decide

/-- The encodings that 95_test_vectors.md prints in V-E4, V-S3, V-X5, V-F9 and V-R4. -/
theorem test_encode :
    ([.keyb 0xF 0x2B, .seed 0xFFFF, .xorb 0xFA, .frameb 0xF9, .rdctr 0xF] : List Instr).map encode =
      [0x100F002B, 0x3000FFFF, 0x400000FA, 0x500000F9, 0x7000000F] := by decide

theorem test_decode_table_word : decodeTableWord 32 0x100F002B = some (.keyb 0xF 0x2B) := by decide
theorem test_decode_table_word_illegal : decodeTableWord 32 0x10100100 = none := by decide

/-! ## Well-formedness: one ill-formed line for each check of R79 and R80 -/

theorem test_illformed_keyb_idx : Asm.wellFormed (.keyb 16 0) = false := by decide
theorem test_illformed_keyb_byte : Asm.wellFormed (.keyb 0 0x100) = false := by decide
theorem test_illformed_seed : Asm.wellFormed (.seed 0x10000) = false := by decide
theorem test_illformed_xorb : Asm.wellFormed (.xorb 0x100) = false := by decide
theorem test_illformed_frameb : Asm.wellFormed (.frameb 0x100) = false := by decide
theorem test_illformed_rdctr : Asm.wellFormed (.rdctr 16) = false := by decide
theorem test_illformed_loadkey_length : Asm.wellFormed (.loadkey (List.replicate 15 0)) = false := by decide
theorem test_illformed_loadkey_byte : Asm.wellFormed (.loadkey (0x100 :: List.replicate 15 0)) = false := by decide
theorem test_illformed_decrypt_seed : Asm.wellFormed (.decrypt 0x10000 []) = false := by decide
theorem test_illformed_decrypt_byte : Asm.wellFormed (.decrypt 0 [0, 0x100]) = false := by decide
theorem test_illformed_frame : Asm.wellFormed (.frame [0x100]) = false := by decide
theorem test_wellformed_at_the_bounds :
    [Asm.keyb 15 0xFF, .seed 0xFFFF, .rdctr 15, .frame [0xFF]].map Asm.wellFormed = List.replicate 4 true := by decide

/-- R79's own form: mnemonic, operands with `0x`, a comment. -/
theorem test_assemble_text :
    (match assemble ["KEYB 0xf, 0x2b ; last key byte".toList, "; only a comment".toList, "STAT".toList] with
      | .ok ws => decide (ws = [0x100F002B, 0x00000000])
      | .error _ => false) = true := by decide

/-- R79: "rejects", never truncates. -/
theorem test_assemble_rejects :
    (match assemble ["SEED 0x10000".toList] with
      | .ok _ => false
      | .error e => decide (e = .outOfRange)) = true := by decide

/-- The offsets 5, 7, 8 meet the constraints of R8. -/
theorem test_offsets : Config.offsetsOk Config.seedOffset Config.fpOffset Config.ctOffset = true := by decide

/-! ## One command, one response (95_test_vectors.md; the vector is named with each) -/

/-- V-C1. -/
theorem test_nop : answer 0x00000000 State.reset = some 0x00100200 := by decide
/-- V-F12. -/
theorem test_nop_in_frame : answer 0x00000000 { keyed with fpos := 3 } = some 0x00150200 := by decide
/-- V-E4. -/
theorem test_keyb : answer 0x100F002B State.reset = some 0x00100200 ∧ (after 0x100F002B State.reset).key[15] = 0x2B := by
  decide
/-- V-K4. -/
theorem test_keyb_locked : answer 0x10030000 keyed = some 0x88110000 ∧ (after 0x10030000 keyed).key = testKey := by decide
/-- V-K3. -/
theorem test_keylock : answer 0x20000000 State.reset = some 0x00110200 := by decide
/-- V-K5. -/
theorem test_keylock_locked : answer 0x20000000 keyed = some 0x88110000 := by decide
/-- V-S2 and the fixture of section 1.2. -/
theorem test_seed :
    answer 0x30001234 State.reset = some 0x00120200 ∧
    (after 0x30001234 State.reset).ctr = #v[0x34, 0x12, 0, 0, 0, 0, 0, 0, 0, 0, 0, 0, 0, 0, 0, 0] := by decide
/-- V-S5: a re-seed in mid-stream. -/
theorem test_seed_again : answer 0x30001234 (buffered 3) = some 0x00130200 := by decide
/-- V-R2, V-R3: the low byte is at index 0. -/
theorem test_rdctr :
    answer 0x70000000 (after 0x3000ABCD State.reset) = some 0x001203CD ∧
    answer 0x70000001 (after 0x3000ABCD State.reset) = some 0x001203AB := by decide
/-- V-R5: after FRAMEEND the counter is kept. -/
theorem test_rdctr_after_frameend :
    answer 0x70000000 (after 0x60000000 (after 0x3000ABCD State.reset)) = some 0x001003CD := by decide
/-- V-X4: the first keystream byte, through the whole cipher. -/
theorem test_xorb : answer 0x40000000 seeded = some 0x000303FA := by decide +kernel
/-- V-X6: the 16th byte of a block. -/
theorem test_xorb_last_byte : answer 0x40000000 (buffered 15) = some 0x001303E9 := by decide
/-- V-F1. -/
theorem test_frameb_first : answer 0x50000010 State.reset = some 0x00140200 := by decide
/-- V-F6, the seed completes at position 6; V-F8 and V-F7, the fingerprint. -/
theorem test_frameb_header :
    answer 0x50000012 (framed 6) = some 0x00170200 ∧ (after 0x50000012 (framed 6)).ctr = seeded.ctr ∧
    answer 0x5000002C (framedSeeded 7) = some 0x001F0200 ∧ answer 0x5000002B (framedSeeded 7) = some 0x00170200 := by decide
/-- V-F3: a short frame. -/
theorem test_frameend_short : answer 0x60000000 (framedSeeded 7) = some 0xB0110000 := by decide
/-- V-F4: a header-only frame. -/
theorem test_frameend : answer 0x60000000 (framedSeeded 8) = some 0x00110200 := by decide
/-- V-C3. -/
theorem test_clrerr : answer 0x80000000 (after 0x40000055 State.reset) = some 0x00100200 := by decide
/-- V-C5. -/
theorem test_clrerr_in_frame : answer 0x80000000 { keyed with fpos := 3 } = some 0x00150200 := by decide

/-- V-E7, ILLEGAL before NOKEY and NOCTR; V-X1, NOKEY before NOCTR. -/
theorem test_priority :
    answer 0x40000100 State.reset = some 0x21100000 ∧ answer 0x40000055 State.reset = some 0x42100000 := by decide
/-- Section 2.13: reset sets STATUS `0x0010`. -/
theorem test_reset : answer 0x00000000 (applyReset (buffered 3)) = some 0x00100200 := by decide
/-- Section 2.7: the carry under each setting, and the wrap. -/
theorem test_inc :
    inc .le128 #v[0xFF, 0, 0, 0, 0, 0, 0, 0, 0, 0, 0, 0, 0, 0, 0, 0] = #v[0, 1, 0, 0, 0, 0, 0, 0, 0, 0, 0, 0, 0, 0, 0, 0] ∧
    inc .be128 #v[0, 0, 0, 0, 0, 0, 0, 0, 0, 0, 0, 0, 0, 0, 0, 0xFF] = #v[0, 0, 0, 0, 0, 0, 0, 0, 0, 0, 0, 0, 0, 0, 1, 0] := by
  decide
/-- Section 2.6: field arithmetic. -/
theorem test_gmul : gmul 0x57 0x83 = 0xC1 ∧ gmul 0x57 0x13 = 0xFE ∧ gmul 0x02 0x87 = 0x15 ∧ xtime 0x80 = 0x1B := by
  decide +kernel
/-- Section 2.6: the S-box. -/
theorem test_sbox : ([0x00, 0x01, 0x10, 0x53, 0x7F, 0xFF] : List Byte).map sbox = [0x63, 0x7C, 0xCA, 0xED, 0xD2, 0x16] := by
  decide +kernel

/-- The placed word is the next command, and a step runs it. -/
theorem test_with_fetch_word :
    (match step (State.reset.withFetchWord 32 0x30001234) with
      | .next t => decide (t.outbox = [0x00120200] ∧ t.inbox = [])
      | .fault _ => false
      | .refused _ => false) = true := by decide

/-! ## Witnesses: states and operands that meet the hypotheses of the obligations -/

theorem test_witness_LegalWordIsTheEncodingOfItsCommand : decode 0x100F00FF = .instr (.keyb 15 255) := by decide

theorem test_witness_WordIsTheRowsCommandIffMaskMatches :
    9 ≤ (BitVec.extractLsb' 28 4 (0x90000000 : Word)).toNat ∧ 9 ≤ (BitVec.extractLsb' 28 4 (0xFFFFFFFF : Word)).toNat := by
  decide

/-- One word for each disjunct, with the lowest or highest must-be-zero bit of its format. -/
theorem test_witness_MustBeZeroBitSetIsRefusedIllegal :
    ([0x00000001, 0x08000000, 0x20000001, 0x60000001, 0x88000000] : List Word).all (fun w =>
      decide (w.extractLsb' 28 4 ∈ [0x0#4, 0x2#4, 0x6#4, 0x8#4] ∧ w &&& 0x0FFFFFFF ≠ 0)) = true ∧
    ([0x10000100, 0x10100000, 0x18000000] : List Word).all (fun w =>
      decide (w.extractLsb' 28 4 = 0x1#4 ∧ w &&& 0x0FF0FF00 ≠ 0)) = true ∧
    ([0x30010000, 0x38000000] : List Word).all (fun w =>
      decide (w.extractLsb' 28 4 = 0x3#4 ∧ w &&& 0x0FFF0000 ≠ 0)) = true ∧
    ([0x40000100, 0x58000000] : List Word).all (fun w =>
      decide (w.extractLsb' 28 4 ∈ [0x4#4, 0x5#4] ∧ w &&& 0x0FFFFF00 ≠ 0)) = true ∧
    ([0x70000010, 0x78000000] : List Word).all (fun w =>
      decide (w.extractLsb' 28 4 = 0x7#4 ∧ w &&& 0x0FFFFFF0 ≠ 0)) = true := by decide

theorem test_witness_ReservedOpcodeIsRefusedIllegal :
    ([0x90000000, 0xF0000000, 0xFFFFFFFF] : List Word).all (fun w => decide (9 ≤ (w.extractLsb' 28 4).toNat)) = true ∧
    decode 0 = .instr .nop := by decide

/-- The bounds and the first values beyond them. -/
theorem test_witness_AssemblerRejectsAndNeverTruncates :
    assembleLine (.keyb 15 255) = .ok [0x100F00FF] ∧ assembleLine (.keyb 16 255) = .error .outOfRange ∧
    assembleLine (.keyb 15 256) = .error .outOfRange ∧ assembleLine (.seed 0xFFFF) = .ok [0x3000FFFF] ∧
    assembleLine (.seed 0x10000) = .error .outOfRange ∧ assembleLine (.xorb 0x100) = .error .outOfRange ∧
    assembleLine (.frameb 0xFF) = .ok [0x500000FF] ∧ assembleLine (.rdctr 15) = .ok [0x7000000F] :=
  ⟨rfl, rfl, rfl, rfl, rfl, rfl, rfl, rfl⟩

/-- A line that is assembled, and one with an operand out of range that is not. -/
theorem test_witness_PseudoInstructionsBecomeTheirExpansions :
    assembleLine (.decrypt 0x1234 [0xF9, 0xC7]) = .ok [0x30001234, 0x400000F9, 0x400000C7] ∧
    assembleLine (.frame [0x10, 0x100]) = .error .outOfRange ∧ assembleLine (.loadkey []) = .error .outOfRange :=
  ⟨rfl, rfl, rfl⟩

theorem test_witness_StepRunsTheDecodedCommand :
    ({ keyed with inbox := [.cmd 0x400000FA] } : State).inbox = .cmd 0x400000FA :: [] ∧
    decode 0x400000FA = .instr (.xorb 0xFA) ∧
    ({ keyed with inbox := [.cmd 0x40000100] } : State).inbox = .cmd 0x40000100 :: [] ∧
    decode 0x40000100 = .illegal .mustBeZero := by decide

theorem test_witness_ResetReturnsNoResponse :
    ({ buffered 3 with inbox := [.rst, .cmd 0] } : State).inbox = .rst :: [.cmd 0] := rfl

/-- Both clauses: the second one's step from a locked state to an unlocked one is the reset, and the NOP after it answers. -/
theorem test_witness_ResetSetsEveryStateElement :
    performEvent .rst keyed = .next State.reset ∧ keyed.klock = true ∧ State.reset.klock = false ∧
    exec .nop State.reset = .next (accept State.reset) := ⟨rfl, rfl, rfl, rfl⟩

theorem test_witness_EveryStepAnswersANextState : State.reset.inbox = [] := rfl

theorem test_witness_EveryCommandWordGetsOneResponse :
    ({ keyed with inbox := [.cmd 0xFFFFFFFF] } : State).inbox = .cmd 0xFFFFFFFF :: [] ∧
    respDv 0x00100200 = false ∧ respAcc 0x21100000 = false := by decide

theorem test_witness_KeybWritesItsByteWhileUnlocked : State.reset.klock = false := rfl

theorem test_witness_KeylockSetsTheLock : State.reset.klock = false := rfl

theorem test_witness_LockedKeyCommandsAreRefused : keyed.klock = true := rfl

theorem test_witness_LockedKeyStaysUntilReset :
    keyed.klock = true ∧ (∀ e ∈ ({ keyed with inbox := [.cmd 0x20000000] } : State).inbox, e ≠ .rst) ∧
    run 1 { keyed with inbox := [.cmd 0x20000000] } = .next (refuse .keylocked keyed) :=
  ⟨rfl, by decide, rfl⟩

theorem test_witness_LoadKeyLeavesTheKeyLocked :
    State.reset.klock = false ∧
    ({ State.reset with inbox := issue (expand (.loadkey (testKey.toList.map BitVec.toNat))) ++ [] } : State).inbox =
      issue (expand (.loadkey (testKey.toList.map BitVec.toNat))) ++ [] := ⟨rfl, rfl⟩

/-- The other key differs in its first byte. The events are a fingerprint byte that neither first byte equals, a KEYB and a
reset; then the position of the second clause, and a ciphertext byte, on an empty buffer and on a filled one, for the third. -/
theorem test_witness_KeyShowsOnlyThroughKeystreamAndFingerprint :
    (testKey.set 0 0)[0] ≠ (framedSeeded 7).key[0] ∧
    (∀ e ∈ ([.cmd 0x5000002C, .cmd 0x10000000, .rst] : List HostEvent),
      (∀ w, e = .cmd w → ¬ TakesKeystream w (framedSeeded 7)) ∧
      ∀ w b, e = .cmd w → decode w = .instr (.frameb b) → (framedSeeded 7).fpos.val = 7 →
        (b = (testKey.set 0 0)[0] ↔ b = (framedSeeded 7).key[0])) ∧
    (framedSeeded 7).fpos.val = 7 ∧
    (TakesKeystream 0x500000F9 (framedSeeded 8) ∧ (framedSeeded 8).kidx.val = 16) ∧
    TakesKeystream 0x400000F9 (buffered 3) ∧ (buffered 3).kidx.val < 16 := by
  have hf : decode 0x5000002C = .instr (.frameb 0x2C) := by decide
  have hk : decode 0x10000000 = .instr (.keyb 0 0) := by decide
  refine ⟨by decide, ?_, rfl, ⟨⟨rfl, rfl, 0xF9, .inr ⟨by decide, rfl⟩⟩, rfl⟩, ⟨rfl, rfl, 0xF9, .inl (by decide)⟩, by decide⟩
  intro e he
  simp only [List.mem_cons, List.not_mem_nil, or_false] at he
  rcases he with rfl | rfl | rfl
  · refine ⟨?_, ?_⟩
    · rintro w ⟨⟩ ⟨-, -, b, h | ⟨-, h⟩⟩
      · cases hf.symm.trans h
      · exact absurd h (by decide)
    · rintro w b ⟨⟩ h -
      cases hf.symm.trans h
      decide
  · refine ⟨?_, ?_⟩
    · rintro w ⟨⟩ ⟨-, -, b, h | ⟨h, -⟩⟩ <;> cases hk.symm.trans h
    · rintro w b ⟨⟩ h -
      cases hk.symm.trans h
  · exact ⟨fun _ h => (nomatch h), fun _ _ h => (nomatch h)⟩

theorem test_witness_NonceExpandIsInjective : nonceExpand 0x1234 = nonceExpand 0x1234 ∧ 2 < 16 ∧ 2 ≤ 2 ∧ 15 < 16 ∧ 2 ≤ 15 := by
  decide

theorem test_witness_ReadIvAfterSeedReturnsTheInitialBlock :
    ({ State.reset with inbox := issue (.seed 0x1234 :: expand .readiv) ++ [.rst] } : State).inbox =
      issue (.seed 0x1234 :: expand .readiv) ++ [.rst] := rfl

theorem test_witness_SboxIsTheAffineMapOfTheInverse : (0 : Byte) = 0 ∧ (0x53 : Byte) ≠ 0 ∧ (0xFF : Byte) ≠ 0 := by decide

theorem test_witness_GmulIsFieldMultiplication : (1 : Byte) ≠ 0 ∧ (0xFF : Byte) ≠ 0 := by decide

theorem test_witness_KeyExpansionMeetsItsRecurrence :
    (3 < 4 ∧ 4 ≤ 4 ∧ 4 < 44 ∧ 4 % 4 = 0 ∧ 43 < 44 ∧ 43 % 4 ≠ 0 ∧ (1 : Nat) ≤ 1) ∧
    ∀ c : Nat, c < 4 → (List.replicate 4 (#v[1, 2, 3, 4] : KeyWord))[4 * 0 + c]? =
      (List.replicate 5 (#v[1, 2, 3, 4] : KeyWord))[4 * 0 + c]? := by decide

theorem test_witness_RoundTransformsActByRowAndColumn :
    (0 : Nat) < 4 ∧ 3 < 4 ∧ ([#v[1, 2, 3, 4]] : List KeyWord)[4 * 0 + 0]? = some #v[1, 2, 3, 4] := ⟨by decide, by decide, rfl⟩

theorem test_witness_MixColumnsMultipliesByTheMatrix : (0 : Nat) < 4 ∧ 3 < 4 := by decide

/-- The block before the wrap. -/
theorem test_witness_IncAddsOneModuloTwoToThe128 :
    let s := { seeded with ctr := Vector.replicate 16 0xFF }
    s.klock = true ∧ s.cvalid = true ∧ s.kidx.val = 16 ∧ s.ctr = Vector.replicate 16 0xFF := ⟨rfl, rfl, rfl, rfl⟩

/-- The empty buffer (`KIDX = 16`), its first byte and its last. -/
theorem test_witness_XorbTakesTheNextKeystreamByte :
    seeded.klock = true ∧ seeded.cvalid = true ∧ seeded.kidx.val = 16 ∧ (buffered 0).kidx.val < 16 ∧
    (buffered 15).klock = true ∧ (buffered 15).cvalid = true ∧ (buffered 15).kidx.val < 16 := by decide

theorem test_witness_XorbIsRefusedWithoutKeyOrCounter :
    State.reset.klock = false ∧ keyed.klock = true ∧ keyed.cvalid = false := by decide

/-- The second clause, and byte 0 of block 0 and byte 1 of block 1 of an 18-byte text for the first. -/
theorem test_witness_XorbStreamComputesDecrypt :
    keyed.klock = true ∧
    ({ keyed with inbox := issue (.seed 0x1234 :: [0xF9, 0xC7].map .xorb) ++ [.cmd 0] } : State).inbox =
      issue (.seed 0x1234 :: [0xF9, 0xC7].map .xorb) ++ [.cmd 0] ∧
    16 * 0 + 0 < (List.replicate 18 (0 : Byte)).length ∧ 16 * 1 + 1 < (List.replicate 18 (0 : Byte)).length :=
  ⟨rfl, rfl, by decide, by decide⟩

/-- Ciphertexts of 16 bytes, of one byte, and of none. -/
theorem test_witness_CounterAdvancesOncePerBlock :
    keyed.klock = true ∧
    (∀ c ∈ [[], [0xF9], List.replicate 16 (0 : Byte)],
      ({ keyed with inbox := issue (.seed 0x1234 :: c.map .xorb) ++ [] } : State).inbox =
        issue (.seed 0x1234 :: c.map .xorb) ++ []) ∧
    (List.replicate 16 (0 : Byte)).length % 16 = 0 ∧ ([0xF9] : List Byte).length % 16 ≠ 0 :=
  ⟨rfl, fun _ _ => rfl, by decide, by decide⟩

theorem test_witness_CounterBlocksMeetOnlyWhereTheSpecSays :
    0 < 2 ^ 128 - 1 ∧ 2 ^ 128 - 1 < 2 ^ 128 ∧ (0 : Seed).toNat < (0xFFFF : Seed).toNat ∧
    0xFFFE < (0xFFFF : Seed).toNat - (0 : Seed).toNat ∧
    2 ^ 128 - 0x10000 + ((0xFFFF : Seed).toNat - (0 : Seed).toNat) < 2 ^ 128 ∧ (0x00FF : Seed) ≠ 0x0100 ∧
    2 ^ 112 - 1 < 2 ^ 112 := by decide

/-- A coherent state with a byte of its keystream taken, and the reset state; each with a command next that answers. -/
theorem test_witness_EveryStepKeepsTheKeystreamCoherent :
    let s := { seeded with ctr := inc .le128 seeded.ctr, ks := aes128 testKey seeded.ctr, kidx := 15 }
    (KeystreamCoherent s ∧ NoKeystreamWhileUnlocked s ∧ step { s with inbox := [.cmd 0] } = .next (accept s)) ∧
    KeystreamCoherent State.reset ∧ NoKeystreamWhileUnlocked State.reset :=
  ⟨⟨⟨by decide, fun _ => ⟨rfl, rfl, seeded.ctr, rfl, rfl⟩⟩, fun h => absurd h (by decide), rfl⟩,
    ⟨by decide, fun h => absurd rfl h⟩, fun _ => ⟨rfl, rfl⟩⟩

theorem test_witness_StaleKeystreamIsNeverObserved : (buffered 16).kidx.val = 16 ∧ (buffered 16).ks ≠ Block.zero := by decide

/-- Positions 0, 4 and 5. -/
theorem test_witness_FramebTakesTheBytesBeforeTheSeedCompletes :
    State.reset.fpos.val < 5 ∧ (framed 4).fpos.val < 5 ∧ (framed 5).fpos.val = 5 := by decide

theorem test_witness_FramebHighByteIsSeed : (framed 6).fpos.val = 6 := rfl

theorem test_witness_FramebChecksTheFingerprint : (framedSeeded 7).fpos.val = 7 := rfl

theorem test_witness_FramebCiphertextIsXorb :
    (framedSeeded 8).fpos.val = 8 ∧ exec (.frameb 0xF9) (framed 8) = .next (refuse .noctr (framed 8)) := ⟨rfl, rfl⟩

/-- The shortest slice, with the header of program P2, and the same with one ciphertext byte. -/
theorem test_witness_FrameComputesDecrypt :
    keyed.klock = true ∧ keyed.fpos.val = 0 ∧
    ∀ slice ∈ ([[0x10, 0x00, 0xA0, 0x01, 0x01, 0x34, 0x12, 0x2B],
        [0x10, 0x00, 0xA0, 0x01, 0x01, 0x34, 0x12, 0x2B, 0xF9]] : List (List Byte)),
      8 ≤ slice.length ∧
      ({ keyed with inbox := issue (slice.map .frameb) ++ [.cmd 0x60000000] } : State).inbox =
        issue (slice.map .frameb) ++ [.cmd 0x60000000] :=
  ⟨rfl, rfl, fun _ h => ⟨by simp only [List.mem_cons, List.not_mem_nil, or_false] at h; rcases h with rfl | rfl <;> decide,
    rfl⟩⟩

/-- Positions 0 and 8, then 1 and 7. -/
theorem test_witness_FrameendEndsTheFrame :
    State.reset.fpos.val = 0 ∧ (framedSeeded 8).fpos.val = 8 ∧
    0 < (framed 1).fpos.val ∧ (framed 1).fpos.val < 8 ∧ 0 < (framedSeeded 7).fpos.val ∧ (framedSeeded 7).fpos.val < 8 := by
  decide

/-- Coherent states on both sides of position 5 and at 8, each with a step that answers. -/
theorem test_witness_EveryStepKeepsTheFrameCoherent :
    FrameCoherent State.reset ∧ FrameCoherent { framed 5 with flo := 0 } ∧ FrameCoherent (framed 6) ∧
    FrameCoherent (framedSeeded 8) ∧
    step { framedSeeded 8 with inbox := [.cmd 0x60000000] } = .next (accept (endFrame (framedSeeded 8))) := by
  refine ⟨?_, ?_, ?_, ?_, rfl⟩ <;> (unfold FrameCoherent; decide)

/-- Locked at positions 0 and 8, and at position 8 without a key, where the refusal is NOKEY; the first state records an
earlier NOCTR, which stays its cause. -/
theorem test_witness_FramebIsNeverRefusedForWantOfACounter :
    let s := { keyed with eNoctr := true, lcause := 3 }
    let u := { framedSeeded 8 with klock := false }
    (FrameCoherent s ∧ s.klock = true ∧ exec (.frameb 0x10) s = .next (accept (setFpos 1 (setFpm false s))) ∧
      (accept (setFpos 1 (setFpm false s))).lcause = causeCode .noctr) ∧
    (FrameCoherent (framedSeeded 8) ∧ (framedSeeded 8).klock = true) ∧
    FrameCoherent u ∧ exec (.frameb 0xF9) u = .next (refuse .nokey u) := by
  refine ⟨⟨?_, rfl, rfl, rfl⟩, ⟨?_, rfl⟩, ?_, rfl⟩ <;> (unfold FrameCoherent; decide)

/-- XORB at reset, refused. -/
theorem test_witness_RefusalChangesOnlyTheErrorRecord :
    decode 0x40000055 ≠ .instr .frameend ∧ performWord 0x40000055 State.reset = .next (refuse .nokey State.reset) ∧
    (refuse .nokey State.reset).outbox = State.reset.outbox ++ [0x42100000] ∧ respAcc 0x42100000 = false :=
  ⟨by decide, rfl, by decide, by decide⟩

/-- NOP with an error recorded, accepted. -/
theorem test_witness_ErrorRecordOnlyAccumulates :
    let s := { State.reset with eNokey := true, lcause := 2 }
    decode 0x00000000 ≠ .instr .clrerr ∧ performWord 0x00000000 s = .next (accept s) ∧
    (accept s).outbox = s.outbox ++ [0x42100200] ∧ stickyOf s .nokey = true ∧ respAcc 0x42100200 = true :=
  ⟨by decide, rfl, by decide, rfl, by decide⟩

theorem test_witness_EveryStepKeepsTheErrorRecordCoherent :
    let s := { State.reset with eIll := true, lcause := 1, inbox := [.cmd 0x40000055] }
    ErrorRecordCoherent State.reset ∧ ErrorRecordCoherent s ∧ step s = .next (refuse .nokey (setInbox [] s)) :=
  ⟨.inl ⟨rfl, rfl, rfl, rfl, rfl, rfl⟩, .inr ⟨.illegal, rfl, rfl⟩, rfl⟩

theorem test_witness_ErrorRecordDoesNotSteerTheBlock :
    let u := { seeded with eIll := true, eShort := true, lcause := 5 }
    u = { seeded with eIll := u.eIll, eNokey := u.eNokey, eNoctr := u.eNoctr, eKlock := u.eKlock, eShort := u.eShort,
                      lcause := u.lcause } := rfl

/-- FRAMEEND of a short frame, twice. -/
theorem test_witness_IdempotentCommandsRepeatWithoutEffect :
    let t := refuse .short (endFrame (framed 3))
    Instr.frameend ≠ .keylock ∧ (∀ b, Instr.frameend ≠ .xorb b) ∧ (∀ b, Instr.frameend ≠ .frameb b) ∧
    exec .frameend (framed 3) = .next t ∧ exec .frameend t = .next (accept (endFrame t)) :=
  ⟨by decide, by decide, by decide, rfl, rfl⟩

theorem test_witness_FrameendLeavesIdle :
    exec .frameend State.reset = .next (accept (endFrame State.reset)) ∧ State.reset.fpos.val = 0 ∧ Clean State.reset ∧
    exec .frameend (framedSeeded 8) = .next (accept (endFrame (framedSeeded 8))) ∧ (framedSeeded 8).fpos.val = 8 ∧
    exec .frameend (framed 1) = .next (refuse .short (endFrame (framed 1))) ∧ 0 < (framed 1).fpos.val ∧
    (framed 7).fpos.val < 8 ∧ exec .frameend (framed 7) = .next (refuse .short (endFrame (framed 7))) :=
  ⟨rfl, rfl, ⟨rfl, rfl, rfl, rfl, rfl, rfl⟩, rfl, rfl, rfl, by decide, by decide, rfl⟩

end Sys2Proof.Tests
end

/-! PROOFS. What one step can do, and what every run keeps. -/

namespace Sys2Proof.Machine

/-- Every word's next state is one of the effects: an illegal word is refused. -/
theorem performWord_effect (w : Word) (s t : State) (h : performWord w s = .next t) : Effect s t := by
  cases hd : decode w with
  | instr i => exact exec_effect i s t (performWord_instr w i s hd ▸ h)
  | illegal why =>
    rw [performWord_illegal w why s hd] at h
    obtain rfl := Host.Outcome.next.inj h
    exact .refused .illegal

/-- All that one step can do: idle, reset, or perform the next word. -/
theorem step_cases (s t : State) (h : step s = .next t) :
    (s.inbox = [] ∧ t = s) ∨
    (∃ rest, s.inbox = .rst :: rest ∧ t = applyReset (setInbox rest s)) ∨
    (∃ w rest, s.inbox = .cmd w :: rest ∧ performWord w (setInbox rest s) = .next t) := by
  cases hb : s.inbox with
  | nil =>
    simp only [step, hb] at h
    exact .inl ⟨rfl, (Host.Outcome.next.inj h).symm⟩
  | cons e rest =>
    rw [step_of_cons s e rest hb] at h
    cases e with
    | rst => exact .inr (.inl ⟨rest, rfl, (Host.Outcome.next.inj h).symm⟩)
    | cmd w => exact .inr (.inr ⟨w, rest, rfl, h⟩)

/-- No command touches the events still pending. -/
theorem Effect.inbox_eq {s t : State} (h : Effect s t) : t.inbox = s.inbox := by
  cases h <;> simp

/-- No command changes a locked key or unlocks it (R101). -/
theorem Effect.locked_key_stays {s t : State} (h : Effect s t) (hk : s.klock = true) :
    t.key = s.key ∧ t.klock = true := by
  cases h with
  | keyWritten idx byte h0 => rw [hk] at h0; contradiction
  | keyFrozen h0 => rw [hk] at h0; contradiction
  | _ => simp [hk]

end Sys2Proof.Machine

namespace Sys2Proof.Safety

open Sys2Proof.Machine

/-- What every step keeps holds after every run. -/
theorem run_keeps (P : State → Prop) (hstep : ∀ s t, P s → step s = .next t → P t) (n : Nat) (s t : State)
    (hs : P s) (h : run n s = .next t) : P t := by
  induction n generalizing s with
  | zero => exact Host.Outcome.next.inj h ▸ hs
  | succ n ih =>
    cases hu : step s with
    | next u => exact ih u (hstep s u hs hu) (run_succ_of_step n s u hu ▸ h)
    | fault r => cases r
    | refused r =>
      have hc : Sys2Proof.core.step s = .refused r := hu
      simp [run, Host.Core.run, hc] at h

/-- The key `k` is locked and no reset is pending. -/
def LockedWithoutReset (k : Block) (s : State) : Prop := Keyed k s ∧ ∀ e ∈ s.inbox, e ≠ .rst

/-- Every step keeps the locked key and leaves no reset pending that was not. -/
theorem step_keeps_lockedWithoutReset (k : Block) (s t : State) (hs : LockedWithoutReset k s) (h : step s = .next t) :
    LockedWithoutReset k t := by
  obtain ⟨⟨hlock, hkey⟩, hin⟩ := hs
  obtain ⟨-, rfl⟩ | ⟨rest, hb, -⟩ | ⟨w, rest, hb, hw⟩ := step_cases s t h
  · exact ⟨⟨hlock, hkey⟩, hin⟩
  · exact absurd rfl (hin .rst (by simp [hb]))
  · have heff := performWord_effect w _ t hw
    obtain ⟨hkey', hlock'⟩ := heff.locked_key_stays hlock
    refine ⟨⟨hlock', hkey'.trans hkey⟩, fun e he => hin e ?_⟩
    rw [heff.inbox_eq] at he
    exact hb ▸ List.mem_cons_of_mem _ he

/-- Settles O19, by the invariant that the key is locked and no reset is pending. -/
theorem lockedKeyStaysUntilReset : Obligations.LockedKeyStaysUntilReset := by
  intro n s t hlock hin h
  obtain ⟨⟨hlock', hkey'⟩, -⟩ :=
    run_keeps (LockedWithoutReset s.key) (step_keeps_lockedWithoutReset s.key) n s t ⟨⟨hlock, rfl⟩, hin⟩ h
  exact ⟨hkey', hlock'⟩

end Sys2Proof.Safety

/-! PROOFS. The keystream buffer: coherence. -/

namespace Sys2Proof.Safety

open Sys2Proof.Machine

/-- With nothing buffered the buffer is coherent. -/
theorem keystreamCoherent_of_empty {s : State} (h : s.kidx = 16) : KeystreamCoherent s :=
  ⟨by rw [h]; decide, fun hne => absurd h hne⟩

/-- With the key unlocked a coherent buffer is empty. -/
theorem KeystreamCoherent.empty_of_unlocked {s : State} (hs : KeystreamCoherent s) (hk : s.klock = false) :
    s.kidx = 16 := by
  by_contra hne
  obtain ⟨hlock, -⟩ := hs.2 hne
  rw [hk] at hlock
  contradiction

/-- Taking a keystream byte keeps the buffer coherent, whether the byte was buffered or its block had to be generated. -/
theorem keystreamByte_keeps_coherent {s : State} (hs : KeystreamCoherent s) (hk : s.klock = true)
    (hc : s.cvalid = true) : KeystreamCoherent (keystreamByte s).2 := by
  rcases kidx_cases s with hlt | hempty
  · rw [keystreamByte_of_lt s hlt]
    have hne : s.kidx ≠ 16 := fun e => by simp [e] at hlt
    exact ⟨Fin.succ_ne_zero ⟨s.kidx.val, hlt⟩, fun _ => hs.2 hne⟩
  · rw [keystreamByte_of_empty s hempty]
    exact ⟨Fin.succ_ne_zero (0 : Fin 16), fun _ => ⟨hk, hc, s.ctr, rfl, rfl⟩⟩

/-- Every command keeps the buffer coherent. -/
theorem effect_keeps_keystreamCoherent {s t : State} (h : Effect s t) (hs : KeystreamCoherent s) :
    KeystreamCoherent t := by
  cases h with
  | keyWritten idx byte hk => exact keystreamCoherent_of_empty (hs.empty_of_unlocked hk)
  | keyFrozen hk => exact keystreamCoherent_of_empty (hs.empty_of_unlocked hk)
  | decrypted byte hk hc => exact keystreamByte_keeps_coherent hs hk hc
  | seeded v => exact keystreamCoherent_of_empty rfl
  | seedHigh byte hp => exact keystreamCoherent_of_empty rfl
  | frameEnded hf => exact keystreamCoherent_of_empty rfl
  | frameCut hf => exact keystreamCoherent_of_empty rfl
  | _ => exact hs

/-- Writes that keep the lock and `KS` and buffer nothing keep the buffer as reset left it while the key is unlocked. -/
theorem NoKeystreamWhileUnlocked.of_eq {s t : State} (hs : NoKeystreamWhileUnlocked s) (hlock : t.klock = s.klock)
    (hks : t.ks = s.ks) (hidx : s.kidx = 16 → t.kidx = 16) : NoKeystreamWhileUnlocked t := by
  intro hk
  obtain ⟨hzero, hempty⟩ := hs (hlock ▸ hk)
  exact ⟨hks.trans hzero, hidx hempty⟩

/-- Every command keeps the buffer as reset left it while the key is unlocked: what writes `KS` needs the lock. -/
theorem effect_keeps_noKeystreamWhileUnlocked {s t : State} (h : Effect s t) (hs : NoKeystreamWhileUnlocked s) :
    NoKeystreamWhileUnlocked t := by
  cases h with
  | keyFrozen hk => intro hk'; simp at hk'
  | decrypted byte hk hc => intro hk'; simp [hk] at hk'
  | _ => exact hs.of_eq (by simp) (by simp) (by simp)

/-- Settles O40: reset empties the buffer, and every command keeps both invariants. -/
theorem everyStepKeepsTheKeystreamCoherent : Obligations.EveryStepKeepsTheKeystreamCoherent := by
  intro s t h
  constructor
  · intro hs
    exact step_keeps KeystreamCoherent (fun _ _ hs => hs) (fun _ _ => keystreamCoherent_of_empty rfl)
      (fun _ hs => hs) (fun _ _ hs h => effect_keeps_keystreamCoherent h hs) s t hs h
  · intro hs
    exact step_keeps NoKeystreamWhileUnlocked (fun _ _ hs => hs) (fun _ _ _ => ⟨rfl, rfl⟩)
      (fun _ hs => hs) (fun _ _ hs h => effect_keeps_noKeystreamWhileUnlocked h hs) s t hs h

end Sys2Proof.Safety

/-! PROOFS. The bits of a response word and of STATUS. -/

namespace Sys2Proof.Machine

@[simp] theorem respData_respWord (acc dv : Bool) (data : Byte) (st : BitVec 16) :
    respData (respWord acc dv data st) = data := by
  ext i hi
  simp only [respData, respWord]
  interval_cases i <;> simp

@[simp] theorem respDv_respWord (acc dv : Bool) (data : Byte) (st : BitVec 16) :
    respDv (respWord acc dv data st) = dv := by
  simp [respDv, respWord]

@[simp] theorem respAcc_respWord (acc dv : Bool) (data : Byte) (st : BitVec 16) :
    respAcc (respWord acc dv data st) = acc := by
  simp [respAcc, respWord]

@[simp] theorem respStatus_respWord (acc dv : Bool) (data : Byte) (st : BitVec 16) :
    respStatus (respWord acc dv data st) = st := by
  ext i hi
  simp only [respStatus, respWord]
  interval_cases i <;> simp

/-- Bits 15:10 of a response are 0 (R33). -/
theorem respWord_reserved (acc dv : Bool) (data : Byte) (st : BitVec 16) :
    (respWord acc dv data st).extractLsb' 10 6 = 0 := by
  ext i hi
  simp only [respWord]
  interval_cases i <;> simp

/-- A response shows its data byte in bits 7:0 alone. -/
theorem respWord_above_data (acc dv : Bool) (data data' : Byte) (st : BitVec 16) :
    (respWord acc dv data st).extractLsb' 8 24 = (respWord acc dv data' st).extractLsb' 8 24 := by
  ext i hi
  simp [respWord]

/-- Settles O14, field by field. -/
theorem responseWordHoldsItsFields : Obligations.ResponseWordHoldsItsFields := by
  intro acc dv data st
  exact ⟨respData_respWord acc dv data st, respDv_respWord acc dv data st, respAcc_respWord acc dv data st,
    respWord_reserved acc dv data st, respStatus_respWord acc dv data st⟩

/-- Bit 2 of STATUS is set exactly inside a frame (R34). -/
theorem status_frameActive (s : State) : (status s).getLsbD 2 = true ↔ s.fpos.val ≠ 0 := by
  simp [status, statusBit, frameActive]

/-- Bit 4 of STATUS is set exactly with no keystream byte buffered (R34). -/
theorem status_keystreamEmpty (s : State) : (status s).getLsbD 4 = true ↔ s.kidx.val = 16 := by
  have hbit : (status s).getLsbD 4 = keystreamEmpty s := by simp [status, statusBit]
  rw [hbit, keystreamEmpty, decide_eq_true_eq, Fin.ext_iff]
  rfl

/-- Bits 7:5 of STATUS are 0 (R34). -/
theorem status_reserved (s : State) : (status s).extractLsb' 5 3 = 0 := by
  ext i hi
  interval_cases i <;> simp [status, statusBit]

/-- Bits 15:13 of STATUS are `LCAUSE` (R34). -/
theorem status_lcause (s : State) : (status s).extractLsb' 13 3 = s.lcause := by
  ext i hi
  interval_cases i <;> simp [status, statusBit]

/-- Settles O15: the one-bit fields stand alone, the wider ones by their lemmas. -/
theorem statusWordHoldsItsFields : Obligations.StatusWordHoldsItsFields := by
  refine ⟨fun s => ?_, by decide⟩
  refine ⟨?_, ?_, status_frameActive s, ?_, status_keystreamEmpty s, status_reserved s, ?_, ?_, ?_, ?_, ?_,
    status_lcause s⟩ <;>
  simp [status, statusBit]

end Sys2Proof.Machine

/-! PROOFS. A step with a command word next: the decoded command runs, and one response is returned. -/

namespace Sys2Proof.Safety

open Sys2Proof.Machine

/-- An illegal word sets `E_ILL` and `LCAUSE`, and nothing else (R75). -/
theorem recordCause_illegal (s : State) : recordCause .illegal s = { s with eIll := true, lcause := 1 } := by
  simp [recordCause, causeCode]

/-- Settles O9: the event is taken, then its word is decoded. -/
theorem stepRunsTheDecodedCommand : Obligations.StepRunsTheDecodedCommand := by
  intro s w rest hb
  rw [step_of_cons s _ rest hb, performEvent]
  constructor
  · intro i hd
    exact performWord_instr w i _ hd
  · intro why hd
    rw [performWord_illegal w why _ hd, refuse, recordCause_illegal]
    rfl

/-- The shape every command word shares, illegal ones included: its writes, then one response. -/
theorem performWord_responds (w : Word) (s : State) :
    ∃ (acc dv : Bool) (data : Byte) (t : State), performWord w s = .next (respond acc dv data t) ∧
      t.outbox = s.outbox ∧ (dv = false → data = 0) ∧ (acc = false → dv = false) := by
  cases hd : decode w with
  | instr i =>
    obtain ⟨acc, dv, data, t, he, -, -, hout, hdata, hdv⟩ := exec_responds i s
    exact ⟨acc, dv, data, t, (performWord_instr w i s hd).trans he, hout, hdata, hdv⟩
  | illegal why =>
    exact ⟨false, false, 0, recordCause .illegal s, performWord_illegal w why s hd, rfl, fun _ => rfl, fun _ => rfl⟩

/-- Settles O13: the response is made after the command's writes, and STATUS does not show the responses. -/
theorem everyCommandWordGetsOneResponse : Obligations.EveryCommandWordGetsOneResponse := by
  intro s w rest hb
  obtain ⟨acc, dv, data, t, he, hout, hdata, hdv⟩ := performWord_responds w (setInbox rest s)
  have hstatus : status (respond acc dv data t) = status t := rfl
  refine ⟨respond acc dv data t, respWord acc dv data (status t), ?_, ?_, ?_, ?_, ?_, ?_⟩
  · rw [step_of_cons s _ rest hb, performEvent, he]
  · rw [respond_outbox, hout, setInbox_outbox]
  · rw [respStatus_respWord, hstatus]
  · exact respWord_reserved acc dv data (status t)
  · rw [respDv_respWord, respData_respWord]
    exact hdata
  · rw [respAcc_respWord, respDv_respWord]
    exact hdv

end Sys2Proof.Safety

/-! PROOFS. The error record: what a command can do to it (R203), and that it only accumulates. -/

namespace Sys2Proof.Safety

open Sys2Proof.Machine

/-- The sticky bits and `LCAUSE` of `u` are those of `s`. -/
def SameErrorRecord (s u : State) : Prop := (∀ c : Cause, stickyOf u c = stickyOf s c) ∧ u.lcause = s.lcause

/-- The record is the same when its six fields are. -/
theorem sameErrorRecord_iff (s u : State) : SameErrorRecord s u ↔
    u.eIll = s.eIll ∧ u.eNokey = s.eNokey ∧ u.eNoctr = s.eNoctr ∧ u.eKlock = s.eKlock ∧ u.eShort = s.eShort ∧
      u.lcause = s.lcause := by
  constructor
  · rintro ⟨hsticky, hcause⟩
    exact ⟨hsticky .illegal, hsticky .nokey, hsticky .noctr, hsticky .keylocked, hsticky .short, hcause⟩
  · rintro ⟨hill, hnokey, hnoctr, hklock, hshort, hcause⟩
    exact ⟨fun c => by cases c <;> assumption, hcause⟩

/-- What a command other than CLRERR does to the error record: it is accepted and keeps it, or it is refused and records the
cause over it. -/
inductive RecordEffect (s : State) : State → Prop where
  /-- Performed: the response has ACC = 1. -/
  | kept (dv : Bool) (data : Byte) (u : State) (hrec : SameErrorRecord s u) (hout : u.outbox = s.outbox) :
      RecordEffect s (respond true dv data u)
  /-- Refused for the cause `c`. -/
  | recorded (c : Cause) (u : State) (hrec : SameErrorRecord s u) (hout : u.outbox = s.outbox) :
      RecordEffect s (refuse c u)

/-- An accepted command without data that keeps the record. -/
theorem recordEffect_accept {s u : State} (hrec : SameErrorRecord s u) (hout : u.outbox = s.outbox) :
    RecordEffect s (accept u) := .kept false 0 u hrec hout

/-- A refusal that writes nothing but the record. -/
theorem recordEffect_refuse (c : Cause) (s : State) : RecordEffect s (refuse c s) :=
  .recorded c s (by simp [sameErrorRecord_iff]) rfl

/-- Decrypting a byte is refused or keeps the record. -/
theorem recordEffect_decryptByte (byte : Byte) (s : State) : RecordEffect s (decryptByte byte s) := by
  obtain ⟨-, e⟩ | ⟨-, -, e⟩ | ⟨-, -, e⟩ := decryptByte_cases byte s <;> rw [e]
  · exact recordEffect_refuse .nokey s
  · exact recordEffect_refuse .noctr s
  · exact .kept true _ _ (by simp [sameErrorRecord_iff]) (by simp)

/-- A header byte keeps the record and returns no response of its own. -/
theorem headerByte_keeps_record (byte : Byte) (s : State) (h : s.fpos.val < 8) :
    SameErrorRecord s (headerByte byte (startFrame s)) ∧ (headerByte byte (startFrame s)).outbox = s.outbox := by
  obtain ⟨-, e⟩ | ⟨-, -, e⟩ | ⟨-, e⟩ | ⟨-, e⟩ | ⟨-, e⟩ := headerByte_cases byte s h <;>
    simp [e, sameErrorRecord_iff]

/-- The error record after a command other than CLRERR. -/
theorem exec_recordEffect (i : Instr) (s t : State) (hi : i ≠ .clrerr) (h : exec i s = .next t) :
    RecordEffect s t := by
  cases i with
  | nop =>
    obtain rfl := Host.Outcome.next.inj h
    exact recordEffect_accept (by simp [sameErrorRecord_iff]) rfl
  | keyb idx byte =>
    cases hk : s.klock
    · obtain rfl := Host.Outcome.next.inj (execKeyb_unlocked idx byte s hk ▸ h)
      exact recordEffect_accept (by simp [sameErrorRecord_iff]) rfl
    · obtain rfl := Host.Outcome.next.inj (execKeyb_locked idx byte s hk ▸ h)
      exact recordEffect_refuse .keylocked s
  | keylock =>
    cases hk : s.klock
    · obtain rfl := Host.Outcome.next.inj (execKeylock_unlocked s hk ▸ h)
      exact recordEffect_accept (by simp [sameErrorRecord_iff]) rfl
    · obtain rfl := Host.Outcome.next.inj (execKeylock_locked s hk ▸ h)
      exact recordEffect_refuse .keylocked s
  | seed v =>
    obtain rfl := Host.Outcome.next.inj h
    exact recordEffect_accept (by simp [sameErrorRecord_iff]) (by simp)
  | xorb byte =>
    obtain rfl := Host.Outcome.next.inj h
    exact recordEffect_decryptByte byte s
  | frameb byte =>
    rcases fpos_cases s with hp | hp
    · obtain rfl := Host.Outcome.next.inj (execFrameb_header byte s hp ▸ h)
      obtain ⟨hrec, hout⟩ := headerByte_keeps_record byte s hp
      exact recordEffect_accept hrec hout
    · obtain rfl := Host.Outcome.next.inj (execFrameb_ciphertext byte s hp ▸ h)
      exact recordEffect_decryptByte byte s
  | frameend =>
    cases hf : frameShort s
    · obtain rfl := Host.Outcome.next.inj (execFrameend_accepted s hf ▸ h)
      exact recordEffect_accept (by simp [sameErrorRecord_iff]) rfl
    · obtain rfl := Host.Outcome.next.inj (execFrameend_short s hf ▸ h)
      exact .recorded .short (endFrame s) (by simp [sameErrorRecord_iff]) rfl
  | rdctr idx =>
    obtain rfl := Host.Outcome.next.inj h
    exact .kept true _ s (by simp [sameErrorRecord_iff]) rfl
  | clrerr => exact absurd rfl hi

/-- The error record after a command word other than CLRERR's. -/
theorem performWord_recordEffect (w : Word) (s t : State) (hw : decode w ≠ .instr .clrerr)
    (h : performWord w s = .next t) : RecordEffect s t := by
  cases hd : decode w with
  | instr i =>
    exact exec_recordEffect i s t (fun hi => hw (hi ▸ hd)) (performWord_instr w i s hd ▸ h)
  | illegal why =>
    obtain rfl := Host.Outcome.next.inj (performWord_illegal w why s hd ▸ h)
    exact recordEffect_refuse .illegal s

/-- A refusal sets the sticky bit of its cause and keeps the others (R203). -/
theorem stickyOf_refuse (c d : Cause) (s : State) : stickyOf (refuse c s) d = (stickyOf s d || decide (c = d)) := by
  cases d <;> rfl

/-- Settles O53: an accepted command keeps the record, and a refusal only adds its cause to the sticky bits. -/
theorem errorRecordOnlyAccumulates : Obligations.ErrorRecordOnlyAccumulates := by
  intro w s t r hw h hr
  cases performWord_recordEffect w s t hw h with
  | kept dv data u hrec hout =>
    obtain ⟨hsticky, hcause⟩ := hrec
    exact ⟨fun c hc => (hsticky c).trans hc, fun _ => ⟨hsticky, hcause⟩⟩
  | recorded c u hrec hout =>
    obtain ⟨hsticky, -⟩ := hrec
    have hacc : respAcc r = false := by
      have : r = respWord false false 0 (status (recordCause c u)) := by simpa [hout] using hr.symm
      rw [this, respAcc_respWord]
    constructor
    · intro d hd
      rw [stickyOf_refuse, hsticky d, hd, Bool.true_or]
    · intro htrue
      rw [hacc] at htrue
      contradiction

/-- After a refusal the record is coherent, whatever it was before. -/
theorem errorRecordCoherent_refuse (c : Cause) (s : State) : ErrorRecordCoherent (refuse c s) :=
  .inr ⟨c, rfl, by simp [stickyOf_refuse]⟩

/-- A state with a coherent state's record is coherent. -/
theorem SameErrorRecord.coherent {s u : State} (hrec : SameErrorRecord s u) (hs : ErrorRecordCoherent s) :
    ErrorRecordCoherent u := by
  obtain ⟨hsticky, hcause⟩ := hrec
  obtain ⟨hill, hnokey, hnoctr, hklock, hshort, hzero⟩ | ⟨c, hcode, hset⟩ := hs
  · exact .inl ⟨(hsticky .illegal).trans hill, (hsticky .nokey).trans hnokey, (hsticky .noctr).trans hnoctr,
      (hsticky .keylocked).trans hklock, (hsticky .short).trans hshort, hcause.trans hzero⟩
  · exact .inr ⟨c, hcause.trans hcode, (hsticky c).trans hset⟩

/-- Every command word keeps the record coherent. -/
theorem performWord_keeps_errorRecordCoherent (w : Word) (s t : State) (hs : ErrorRecordCoherent s)
    (h : performWord w s = .next t) : ErrorRecordCoherent t := by
  by_cases hw : decode w = .instr .clrerr
  · obtain rfl := Host.Outcome.next.inj (performWord_instr w .clrerr s hw ▸ h)
    exact .inl ⟨rfl, rfl, rfl, rfl, rfl, rfl⟩
  · cases performWord_recordEffect w s t hw h with
    | kept dv data u hrec hout => exact hrec.coherent hs
    | recorded c u hrec hout => exact errorRecordCoherent_refuse c u

/-- In a coherent record `LCAUSE` is 0 or the code of a cause, and the codes end at 5 (R200). -/
theorem ErrorRecordCoherent.lcause_le {s : State} (hs : ErrorRecordCoherent s) : s.lcause.toNat ≤ 5 := by
  obtain ⟨-, -, -, -, -, hzero⟩ | ⟨c, hcode, -⟩ := hs
  · simp [hzero]
  · rw [hcode]
    cases c <;> decide

/-- Settles O54, over the events a step can take. -/
theorem everyStepKeepsTheErrorRecordCoherent : Obligations.EveryStepKeepsTheErrorRecordCoherent := by
  intro s t hs h
  have ht : ErrorRecordCoherent t := by
    obtain ⟨-, rfl⟩ | ⟨rest, -, rfl⟩ | ⟨w, rest, -, hw⟩ := step_cases s t h
    · exact hs
    · exact .inl ⟨rfl, rfl, rfl, rfl, rfl, rfl⟩
    · exact performWord_keeps_errorRecordCoherent w (setInbox rest s) t hs hw
  exact ⟨ht, ht.lcause_le⟩

end Sys2Proof.Safety

/-! PROOFS. What a header byte does at each position (R171 to R174), and where a decrypted byte's keystream comes from
(R151). -/

namespace Sys2Proof.Machine

theorem headerByte_start (byte : Byte) (s : State) (h : s.fpos = 0) :
    headerByte byte (startFrame s) = setFpm false s := by
  simp [startFrame, headerByte, h, Config.seedOffset, Config.fpOffset]

theorem headerByte_ignored (byte : Byte) (s : State) (h0 : 0 < s.fpos.val) (h5 : s.fpos.val < 5) :
    headerByte byte (startFrame s) = s := by
  obtain ⟨hp, -⟩ | ⟨-, -, e⟩ | ⟨hp, -⟩ | ⟨hp, -⟩ | ⟨hp, -⟩ := headerByte_cases byte s (by omega)
  · simp [hp] at h0
  · exact e
  all_goals omega

theorem headerByte_seedLow (byte : Byte) (s : State) (h : s.fpos.val = 5) :
    headerByte byte (startFrame s) = setFlo byte s := by
  have hpos : s.fpos = 5 := Fin.ext h
  simp [startFrame, headerByte, hpos, Config.seedOffset]

theorem headerByte_seedHigh (byte : Byte) (s : State) (h : s.fpos.val = 6) :
    headerByte byte (startFrame s) = loadSeed (seedOfBytes s.flo byte) s := by
  have hpos : s.fpos = 6 := Fin.ext h
  simp [startFrame, headerByte, hpos, Config.seedOffset]

theorem headerByte_fingerprint (byte : Byte) (s : State) (h : s.fpos.val = 7) :
    headerByte byte (startFrame s) = setFpm (decide (byte ≠ s.key[0])) s := by
  have hpos : s.fpos = 7 := Fin.ext h
  simp [startFrame, headerByte, hpos, Config.seedOffset, Config.fpOffset]

/-- With a byte buffered, decryption reads `KS`. -/
theorem decryptByte_of_buffered (c : Byte) (s : State) (hk : s.klock = true) (hc : s.cvalid = true)
    (hidx : s.kidx.val < 16) :
    decryptByte c s = acceptData (c ^^^ s.ks[s.kidx.val]) (consume ⟨s.kidx.val, hidx⟩ s) := by
  rw [decryptByte_accepted c s hk hc, keystreamByte_of_lt s hidx]

/-- With the buffer empty, decryption generates a block and does not read the old `KS`. -/
theorem decryptByte_of_empty (c : Byte) (s : State) (hk : s.klock = true) (hc : s.cvalid = true)
    (hidx : s.kidx.val = 16) :
    decryptByte c s = acceptData (c ^^^ (aes128 s.key s.ctr)[0]) (consume 0 (generateBlock s)) := by
  rw [decryptByte_accepted c s hk hc, keystreamByte_of_empty s hidx]

end Sys2Proof.Machine

/-! PROOFS. The key and the keystream buffer show only through keystream bytes and the fingerprint flag (R24, R28, R102): the
state is compared with the same state holding another key and another buffer. -/

namespace Sys2Proof.Safety

open Sys2Proof.Machine

/-- The state with `KEY = k` and `KS = b`. -/
def withSecrets (k b : Block) (s : State) : State := { s with key := k, ks := b }

/-- The results `x` from a state `s`, and `y` from `s` with `KEY = k` and `KS = b`, show neither: `y` is `x` but for `KS` and
the key, which the command changed alike, if at all. `KS` is kept, and an empty buffer stays empty. -/
def HidesSecrets (s : State) (k b : Block) (x y : Result) : Prop :=
  ∃ t k', x = .next t ∧ y = .next (withSecrets k' b t) ∧ (k = s.key → k' = t.key) ∧ t.ks = s.ks ∧
    (s.kidx = 16 → t.kidx = 16)

/-- Where one next state is the other with the same two secrets. -/
theorem hidesSecrets_of_next {s t u : State} {k b : Block} (hu : u = withSecrets k b t) (hkey : t.key = s.key)
    (hks : t.ks = s.ks) (hidx : s.kidx = 16 → t.kidx = 16) : HidesSecrets s k b (.next t) (.next u) :=
  ⟨t, k, rfl, congrArg _ hu, fun h => h.trans hkey.symm, hks, hidx⟩

/-- A refusal shows neither secret. -/
theorem hidesSecrets_refuse (c : Cause) (s : State) (k b : Block) :
    HidesSecrets s k b (.next (refuse c s)) (.next (refuse c (withSecrets k b s))) :=
  hidesSecrets_of_next rfl rfl rfl id

/-- A byte that is refused shows neither secret. -/
theorem hidesSecrets_decryptByte (byte : Byte) (s : State) (k b : Block)
    (hno : ¬ (s.klock = true ∧ s.cvalid = true)) :
    HidesSecrets s k b (.next (decryptByte byte s)) (.next (decryptByte byte (withSecrets k b s))) := by
  obtain ⟨hk, e⟩ | ⟨hk, hc, e⟩ | ⟨hk, hc, -⟩ := decryptByte_cases byte s
  · rw [e, decryptByte_nokey byte (withSecrets k b s) hk]
    exact hidesSecrets_refuse .nokey s k b
  · rw [e, decryptByte_noctr byte (withSecrets k b s) hk hc]
    exact hidesSecrets_refuse .noctr s k b
  · exact absurd ⟨hk, hc⟩ hno

/-- A header byte shows neither secret, if at position 7 it tells the same about both keys. -/
theorem headerByte_withSecrets (byte : Byte) (s : State) (k b : Block) (h : s.fpos.val < 8)
    (hfp : s.fpos.val = 7 → (byte = k[0] ↔ byte = s.key[0])) :
    headerByte byte (startFrame (withSecrets k b s)) = withSecrets k b (headerByte byte (startFrame s)) := by
  obtain ⟨hp, e⟩ | ⟨h0, h5, e⟩ | ⟨hp, e⟩ | ⟨hp, e⟩ | ⟨hp, e⟩ := headerByte_cases byte s h
  · rw [e, headerByte_start byte (withSecrets k b s) hp]
    rfl
  · rw [e, headerByte_ignored byte (withSecrets k b s) h0 h5]
  · rw [e, headerByte_seedLow byte (withSecrets k b s) hp]
    rfl
  · rw [e, headerByte_seedHigh byte (withSecrets k b s) hp]
    rfl
  · have hsame : decide (byte ≠ k[0]) = decide (byte ≠ s.key[0]) := by simp [hfp hp]
    rw [e, headerByte_fingerprint byte (withSecrets k b s) hp, ← hsame]
    rfl

/-- A header byte keeps the key, `KS` and the emptiness of the buffer. -/
theorem headerByte_keeps_keystream (byte : Byte) (s : State) (h : s.fpos.val < 8) :
    (headerByte byte (startFrame s)).key = s.key ∧ (headerByte byte (startFrame s)).ks = s.ks ∧
      (s.kidx = 16 → (headerByte byte (startFrame s)).kidx = 16) := by
  obtain ⟨-, e⟩ | ⟨-, -, e⟩ | ⟨-, e⟩ | ⟨-, e⟩ | ⟨-, e⟩ := headerByte_cases byte s h <;> simp [e]

/-- A FRAMEB of the header shows neither secret, if at position 7 it tells the same about both keys. -/
theorem hidesSecrets_header (byte : Byte) (s : State) (k b : Block) (h : s.fpos.val < 8)
    (hfp : s.fpos.val = 7 → (byte = k[0] ↔ byte = s.key[0])) :
    HidesSecrets s k b (exec (.frameb byte) s) (exec (.frameb byte) (withSecrets k b s)) := by
  obtain ⟨hkey, hks, hidx⟩ := headerByte_keeps_keystream byte s h
  rw [execFrameb_header byte s h, execFrameb_header byte (withSecrets k b s) h,
    headerByte_withSecrets byte s k b h hfp]
  exact hidesSecrets_of_next rfl hkey hks hidx

/-- KEYB shows neither secret; unlocked, it writes its byte over either key. -/
theorem hidesSecrets_keyb (idx : BitVec 4) (byte : Byte) (s : State) (k b : Block) :
    HidesSecrets s k b (exec (.keyb idx byte) s) (exec (.keyb idx byte) (withSecrets k b s)) := by
  cases hk : s.klock
  · rw [execKeyb_unlocked idx byte s hk, execKeyb_unlocked idx byte (withSecrets k b s) hk]
    exact ⟨_, k.set idx.toNat byte, rfl, rfl, fun h => by simp [h], rfl, id⟩
  · rw [execKeyb_locked idx byte s hk, execKeyb_locked idx byte (withSecrets k b s) hk]
    exact hidesSecrets_refuse .keylocked s k b

/-- A command that takes no keystream byte shows neither secret, if a fingerprint byte tells the same about both keys. -/
theorem exec_hidesSecrets (i : Instr) (s : State) (k b : Block)
    (hno : ∀ byte, i = .xorb byte ∨ (i = .frameb byte ∧ s.fpos.val = 8) → ¬ (s.klock = true ∧ s.cvalid = true))
    (hfp : ∀ byte, i = .frameb byte → s.fpos.val = 7 → (byte = k[0] ↔ byte = s.key[0])) :
    HidesSecrets s k b (exec i s) (exec i (withSecrets k b s)) := by
  cases i with
  | nop => exact hidesSecrets_of_next (t := accept s) rfl rfl rfl id
  | keyb idx byte => exact hidesSecrets_keyb idx byte s k b
  | keylock =>
    cases hk : s.klock
    · rw [execKeylock_unlocked s hk, execKeylock_unlocked (withSecrets k b s) hk]
      exact hidesSecrets_of_next rfl rfl rfl id
    · rw [execKeylock_locked s hk, execKeylock_locked (withSecrets k b s) hk]
      exact hidesSecrets_refuse .keylocked s k b
  | seed v => exact hidesSecrets_of_next (t := accept (loadSeed v s)) rfl (by simp) (by simp) (fun _ => rfl)
  | xorb byte => exact hidesSecrets_decryptByte byte s k b (hno byte (.inl rfl))
  | frameb byte =>
    rcases fpos_cases s with hp | hp
    · exact hidesSecrets_header byte s k b hp (hfp byte rfl)
    · rw [execFrameb_ciphertext byte s hp, execFrameb_ciphertext byte (withSecrets k b s) hp]
      exact hidesSecrets_decryptByte byte s k b (hno byte (.inr ⟨rfl, hp⟩))
  | frameend =>
    cases hf : frameShort s
    · rw [execFrameend_accepted s hf, execFrameend_accepted (withSecrets k b s) hf]
      exact hidesSecrets_of_next rfl rfl rfl (fun _ => rfl)
    · rw [execFrameend_short s hf, execFrameend_short (withSecrets k b s) hf]
      exact hidesSecrets_of_next rfl rfl rfl (fun _ => rfl)
  | rdctr idx => exact hidesSecrets_of_next (t := acceptData (readCtr idx s) s) rfl rfl rfl id
  | clrerr => exact hidesSecrets_of_next (t := accept (clearErrors s)) rfl rfl rfl id

/-- A word that takes no keystream byte shows neither secret, if a fingerprint byte tells the same about both keys. -/
theorem performWord_hidesSecrets (w : Word) (s : State) (k b : Block) (hno : ¬ TakesKeystream w s)
    (hfp : ∀ byte, decode w = .instr (.frameb byte) → s.fpos.val = 7 → (byte = k[0] ↔ byte = s.key[0])) :
    HidesSecrets s k b (performWord w s) (performWord w (withSecrets k b s)) := by
  cases hd : decode w with
  | instr i =>
    rw [performWord_instr w i s hd, performWord_instr w i _ hd]
    apply exec_hidesSecrets
    · rintro byte (rfl | ⟨rfl, hp⟩) ⟨hk, hc⟩
      · exact hno ⟨hk, hc, byte, .inl hd⟩
      · exact hno ⟨hk, hc, byte, .inr ⟨hd, hp⟩⟩
    · intro byte hi
      exact hfp byte (hi ▸ hd)
  | illegal why =>
    rw [performWord_illegal w why s hd, performWord_illegal w why _ hd]
    exact hidesSecrets_refuse .illegal s k b

/-- A word that takes a keystream byte decrypts its byte with it. -/
theorem performWord_of_takesKeystream (w : Word) (s : State) (h : TakesKeystream w s) :
    ∃ c : Byte, ∀ u : State, u.fpos = s.fpos → performWord w u = .next (decryptByte c u) := by
  obtain ⟨-, -, c, hd | ⟨hd, hp⟩⟩ := h
  · exact ⟨c, fun u _ => performWord_instr w _ u hd⟩
  · refine ⟨c, fun u hu => ?_⟩
    rw [performWord_instr w _ u hd, execFrameb_ciphertext c u (hu ▸ hp)]

/-- Settles O41: a command that takes a byte overwrites `KS` first, and no other shows it. -/
theorem staleKeystreamIsNeverObserved : Obligations.StaleKeystreamIsNeverObserved := by
  intro s b e hidx
  cases e with
  | rst => exact ⟨applyReset s, rfl, .inl rfl⟩
  | cmd w =>
    by_cases htakes : TakesKeystream w s
    · obtain ⟨c, hperform⟩ := performWord_of_takesKeystream w s htakes
      obtain ⟨hk, hc, -⟩ := htakes
      refine ⟨_, hperform s rfl, .inl ((hperform { s with ks := b } rfl).trans ?_)⟩
      rw [decryptByte_of_empty c s hk hc hidx, decryptByte_of_empty c { s with ks := b } hk hc hidx]
      rfl
    · obtain ⟨t, k', hs, hu, hkey, -, hempty⟩ :=
        performWord_hidesSecrets w s s.key b htakes (fun _ _ _ => Iff.rfl)
      have hkidx : t.kidx = 16 := hempty (Fin.ext hidx)
      refine ⟨t, hs, .inr ⟨congrArg Fin.val hkidx, ?_⟩⟩
      rw [hkey rfl] at hu
      exact hu

/-- An event that takes no keystream byte leaves states that differ in the key alone (first clause of O21). -/
theorem performEvent_hides_key (e : HostEvent) (s : State) (k : Block)
    (hno : ∀ w, e = .cmd w → ¬ TakesKeystream w s)
    (hfp : ∀ w b, e = .cmd w → decode w = .instr (.frameb b) → s.fpos.val = 7 → (b = k[0] ↔ b = s.key[0])) :
    ∃ t k', performEvent e s = .next t ∧ performEvent e { s with key := k } = .next { t with key := k' } := by
  cases e with
  | rst => exact ⟨applyReset s, State.reset.key, rfl, rfl⟩
  | cmd w =>
    obtain ⟨t, k', hs, hu, -, hks, -⟩ :=
      performWord_hidesSecrets w s k s.ks (hno w rfl) (fun b => hfp w b rfl)
    have hkey : withSecrets k' s.ks t = { t with key := k' } := by
      rw [← hks]
      rfl
    exact ⟨t, k', hs, hu.trans (congrArg _ hkey)⟩

/-- The fingerprint byte leaves states that differ in the key and `FPM` alone (R174; second clause of O21). -/
theorem fingerprint_shows_key_in_fpm (b : Byte) (s : State) (k : Block) (hp : s.fpos.val = 7) :
    ∃ t u, exec (.frameb b) s = .next t ∧ exec (.frameb b) { s with key := k } = .next u ∧
      u = { t with key := k, fpm := decide (b ≠ k[0]), outbox := u.outbox } ∧
      t.outbox = s.outbox ++ [respWord true false 0 (status t)] ∧
      u.outbox = s.outbox ++ [respWord true false 0 (status u)] := by
  have hexec : ∀ v : State, v.fpos.val = 7 → exec (.frameb b) v =
      .next (accept (setFpos 8 (setFpm (decide (b ≠ v.key[0])) v))) := by
    intro v hv
    have hpos : v.fpos = 7 := Fin.ext hv
    rw [execFrameb_header b v (by omega), headerByte_fingerprint b v hv]
    simp [hpos]
  exact ⟨_, _, hexec s hp, hexec { s with key := k } hp, rfl, rfl, rfl⟩

/-- A decrypted byte shows the key in `KS` and `DATA` alone, and in neither where the byte was buffered or the two keys
encrypt the counter block alike (R151; third clause of O21). -/
theorem decryptByte_shows_key_in_data (c : Byte) (s : State) (k : Block) (hk : s.klock = true)
    (hc : s.cvalid = true) :
    ∃ r q, decryptByte c { s with key := k } =
        { decryptByte c s with
          key := k
          ks := (decryptByte c { s with key := k }).ks
          outbox := (decryptByte c { s with key := k }).outbox } ∧
      (decryptByte c s).outbox = s.outbox ++ [r] ∧ (decryptByte c { s with key := k }).outbox = s.outbox ++ [q] ∧
      r.extractLsb' 8 24 = q.extractLsb' 8 24 ∧
      (s.kidx.val < 16 ∨ aes128 k s.ctr = aes128 s.key s.ctr →
        decryptByte c { s with key := k } = { decryptByte c s with key := k }) := by
  rcases kidx_cases s with hlt | hempty
  · rw [decryptByte_of_buffered c s hk hc hlt, decryptByte_of_buffered c { s with key := k } hk hc hlt]
    exact ⟨_, _, rfl, rfl, rfl, rfl, fun _ => rfl⟩
  · rw [decryptByte_of_empty c s hk hc hempty, decryptByte_of_empty c { s with key := k } hk hc hempty]
    refine ⟨_, _, rfl, rfl, rfl, respWord_above_data true true _ _ _, ?_⟩
    rintro (hlt | haes)
    · omega
    · simp only [generateBlock, haes]
      rfl

/-- Settles O21, clause by clause. -/
theorem keyShowsOnlyThroughKeystreamAndFingerprint : Obligations.KeyShowsOnlyThroughKeystreamAndFingerprint := by
  intro s k
  refine ⟨fun e hno hfp => performEvent_hides_key e s k hno hfp,
    fun b hp => fingerprint_shows_key_in_fpm b s k hp, fun w htakes => ?_⟩
  obtain ⟨c, hperform⟩ := performWord_of_takesKeystream w s htakes
  obtain ⟨hk, hc, -⟩ := htakes
  obtain ⟨r, q, hu, hr, hq, hdata, hsame⟩ := decryptByte_shows_key_in_data c s k hk hc
  exact ⟨_, _, r, q, hperform s rfl, hperform { s with key := k } rfl, hu, hr, hq, hdata, hsame⟩

end Sys2Proof.Safety

/-! PROOFS. A refused command, FRAMEEND apart, writes nothing but the error record (R203, R206). -/

namespace Sys2Proof.Safety

open Sys2Proof.Machine

/-- The result `x` from `s` is performed (ACC = 1), or it is a refusal that writes nothing before the error record. -/
inductive AcceptsOrOnlyRefuses (s : State) : Result → Prop where
  /-- Performed: the response has ACC = 1. -/
  | accepts (dv : Bool) (data : Byte) (u : State) (hout : u.outbox = s.outbox) :
      AcceptsOrOnlyRefuses s (.next (respond true dv data u))
  /-- Refused for the cause `c`. -/
  | refuses (c : Cause) : AcceptsOrOnlyRefuses s (.next (refuse c s))

theorem decryptByte_acceptsOrOnlyRefuses (byte : Byte) (s : State) :
    AcceptsOrOnlyRefuses s (.next (decryptByte byte s)) := by
  obtain ⟨-, e⟩ | ⟨-, -, e⟩ | ⟨-, -, e⟩ := decryptByte_cases byte s <;> rw [e]
  · exact .refuses .nokey
  · exact .refuses .noctr
  · exact .accepts true _ _ (by simp)

/-- FRAMEEND is the one command that can be refused after a write of its own (R176). -/
theorem exec_acceptsOrOnlyRefuses (i : Instr) (s : State) (hi : i ≠ .frameend) :
    AcceptsOrOnlyRefuses s (exec i s) := by
  cases i with
  | nop => exact .accepts false 0 s rfl
  | keyb idx byte =>
    cases hk : s.klock
    · rw [execKeyb_unlocked idx byte s hk]
      exact .accepts false 0 (writeKey idx byte s) rfl
    · rw [execKeyb_locked idx byte s hk]
      exact .refuses .keylocked
  | keylock =>
    cases hk : s.klock
    · rw [execKeylock_unlocked s hk]
      exact .accepts false 0 (lockKey s) rfl
    · rw [execKeylock_locked s hk]
      exact .refuses .keylocked
  | seed v => exact .accepts false 0 (loadSeed v s) rfl
  | xorb byte => exact decryptByte_acceptsOrOnlyRefuses byte s
  | frameb byte =>
    rcases fpos_cases s with hp | hp
    · obtain ⟨-, hout⟩ := headerByte_keeps_record byte s hp
      rw [execFrameb_header byte s hp]
      exact .accepts false 0 _ hout
    · rw [execFrameb_ciphertext byte s hp]
      exact decryptByte_acceptsOrOnlyRefuses byte s
  | frameend => exact absurd rfl hi
  | rdctr idx => exact .accepts true (readCtr idx s) s rfl
  | clrerr => exact .accepts false 0 (clearErrors s) rfl

theorem performWord_acceptsOrOnlyRefuses (w : Word) (s : State) (hw : decode w ≠ .instr .frameend) :
    AcceptsOrOnlyRefuses s (performWord w s) := by
  cases hd : decode w with
  | instr i =>
    rw [performWord_instr w i s hd]
    exact exec_acceptsOrOnlyRefuses i s fun hi => hw (hi ▸ hd)
  | illegal why =>
    rw [performWord_illegal w why s hd]
    exact .refuses .illegal

/-- The response that `respond` adds has the ACC it was given. -/
theorem respAcc_of_respond {acc dv : Bool} {data : Byte} {s u : State} {r : Word} (hout : u.outbox = s.outbox)
    (hr : (respond acc dv data u).outbox = s.outbox ++ [r]) : respAcc r = acc := by
  have hword : respWord acc dv data (status u) = r := by simpa [hout] using hr
  rw [← hword, respAcc_respWord]

/-- Settles O52: the response with ACC = 0 is that of a refusal, and a refusal of any word but FRAMEEND's is `refuse` on the
state before the word. -/
theorem refusalChangesOnlyTheErrorRecord : Obligations.RefusalChangesOnlyTheErrorRecord := by
  intro w s t r hw h hr hacc
  have hresult := performWord_acceptsOrOnlyRefuses w s hw
  rw [h] at hresult
  cases hresult with
  | accepts dv data u hout =>
    have hacc' : respAcc r = true := respAcc_of_respond hout hr
    rw [hacc] at hacc'
    contradiction
  | refuses c =>
    refine ⟨c, by simp [stickyOf_refuse], fun d hd => ?_, rfl⟩
    simp [stickyOf_refuse, hd.symm]

end Sys2Proof.Safety

/-! PROOFS. The commands that repeat without effect (R56): their writes, done again after the response, change nothing. -/

namespace Sys2Proof.Machine

theorem writeKey_again (idx : BitVec 4) (byte : Byte) (s : State) :
    writeKey idx byte (accept (writeKey idx byte s)) = accept (writeKey idx byte s) := by
  simp [writeKey, accept, respond]

theorem recordCause_again (c : Cause) (s : State) : recordCause c (refuse c s) = refuse c s := by
  simp [recordCause, refuse, respond]

theorem refuse_again (c : Cause) (s : State) : refuse c (refuse c s) = respond false false 0 (refuse c s) :=
  congrArg (respond false false 0) (recordCause_again c s)

/-- With `FPOS = 0` no frame is short. -/
theorem frameShort_of_fpos_zero {s : State} (h : s.fpos = 0) : frameShort s = false := by
  simp [frameShort, h]

/-- After a FRAMEEND the next one is accepted, also where the first was refused `SHORT`, and finds its writes done (R176). -/
theorem execFrameend_again (s t : State) (h : exec .frameend s = .next t) : exec .frameend t = .next (accept t) := by
  cases hf : frameShort s
  · obtain rfl := Host.Outcome.next.inj (execFrameend_accepted s hf ▸ h)
    exact execFrameend_accepted _ (frameShort_of_fpos_zero rfl)
  · obtain rfl := Host.Outcome.next.inj (execFrameend_short s hf ▸ h)
    exact execFrameend_accepted _ (frameShort_of_fpos_zero rfl)

/-- A second KEYB is answered as the first: the lock has not changed, and its byte or its cause is written already. -/
theorem execKeyb_again (idx : BitVec 4) (byte : Byte) (s t : State) (h : exec (.keyb idx byte) s = .next t) :
    ∃ acc, exec (.keyb idx byte) t = .next (respond acc false 0 t) := by
  cases hk : s.klock
  · obtain rfl := Host.Outcome.next.inj (execKeyb_unlocked idx byte s hk ▸ h)
    refine ⟨true, ?_⟩
    rw [execKeyb_unlocked idx byte (accept (writeKey idx byte s)) hk, writeKey_again]
    rfl
  · obtain rfl := Host.Outcome.next.inj (execKeyb_locked idx byte s hk ▸ h)
    refine ⟨false, ?_⟩
    rw [execKeyb_locked idx byte (refuse .keylocked s) hk, refuse_again]

/-- Every command but KEYLOCK, XORB and FRAMEB only responds when it is issued again (R56). -/
theorem exec_again_only_responds (i : Instr) (s t : State) (hlock : i ≠ .keylock) (hxorb : ∀ b, i ≠ .xorb b)
    (hframeb : ∀ b, i ≠ .frameb b) (h : exec i s = .next t) :
    ∃ acc dv data, exec i t = .next (respond acc dv data t) := by
  cases i with
  | nop => exact ⟨true, false, 0, rfl⟩
  | keyb idx byte =>
    obtain ⟨acc, e⟩ := execKeyb_again idx byte s t h
    exact ⟨acc, false, 0, e⟩
  | keylock => exact absurd rfl hlock
  | seed v =>
    obtain rfl := Host.Outcome.next.inj h
    exact ⟨true, false, 0, rfl⟩
  | xorb byte => exact absurd rfl (hxorb byte)
  | frameb byte => exact absurd rfl (hframeb byte)
  | frameend => exact ⟨true, false, 0, execFrameend_again s t h⟩
  | rdctr idx => exact ⟨true, true, readCtr idx t, rfl⟩
  | clrerr =>
    obtain rfl := Host.Outcome.next.inj h
    exact ⟨true, false, 0, rfl⟩

/-- Settles O56: issued again, each of the commands adds its response and nothing else. -/
theorem idempotentCommandsRepeatWithoutEffect : Obligations.IdempotentCommandsRepeatWithoutEffect := by
  intro i s t u hlock hxorb hframeb h hu
  obtain ⟨acc, dv, data, e⟩ := exec_again_only_responds i s t hlock hxorb hframeb h
  obtain rfl := Host.Outcome.next.inj (e ▸ hu)
  rfl

end Sys2Proof.Machine

/-! PROOFS. The decoder and the encoder: a word decodes to a command exactly when it is of the command's row and holds its
operands (R72, R74, R77). -/

namespace Sys2Proof

open Sys2Proof.Machine

/-- The opcode of a command's row (R74). -/
def opcodeOf : Instr → BitVec 4
  | .nop => 0x0
  | .keyb _ _ => 0x1
  | .keylock => 0x2
  | .seed _ => 0x3
  | .xorb _ => 0x4
  | .frameb _ => 0x5
  | .frameend => 0x6
  | .rdctr _ => 0x7
  | .clrerr => 0x8

/-- The must-be-zero bits of a command's format (R72). -/
def mustBeZeroOf : Instr → Word
  | .keyb _ _ => 0x0FF0FF00
  | .seed _ => 0x0FFF0000
  | .xorb _ | .frameb _ => 0x0FFFFF00
  | .rdctr _ => 0x0FFFFFF0
  | .nop | .keylock | .frameend | .clrerr => 0x0FFFFFFF

/-- The command of the same row with the operands that the word holds in that row's fields (R72, R73). -/
def withOperandsOf (w : Word) : Instr → Instr
  | .keyb _ _ => .keyb (idxFieldKB w) (byteField w)
  | .seed _ => .seed (seedField w)
  | .xorb _ => .xorb (byteField w)
  | .frameb _ => .frameb (byteField w)
  | .rdctr _ => .rdctr (idxFieldN w)
  | i => i

@[simp] theorem opcodeOf_withOperandsOf (w : Word) (i : Instr) : opcodeOf (withOperandsOf w i) = opcodeOf i := by
  cases i <;> rfl

@[simp] theorem mustBeZeroOf_withOperandsOf (w : Word) (i : Instr) :
    mustBeZeroOf (withOperandsOf w i) = mustBeZeroOf i := by
  cases i <;> rfl

@[simp] theorem withOperandsOf_withOperandsOf (w : Word) (i : Instr) :
    withOperandsOf w (withOperandsOf w i) = withOperandsOf w i := by
  cases i <;> rfl

/-! The rows of R74: `OP` and the must-be-zero bits are what the mask picks out. -/

theorem opField_matchWord (i : Instr) : opField (matchWord i) = opcodeOf i := by
  cases i <;> simp [opField, matchWord, opcodeOf]

theorem matchWord_low (i : Instr) : matchWord i &&& 0x0FFFFFFF = 0 := by
  cases i <;> simp [matchWord]

theorem opField_maskWord (i : Instr) : opField (maskWord i) = 0xF := by
  cases i <;> simp [opField, maskWord]

theorem maskWord_low (i : Instr) : maskWord i &&& 0x0FFFFFFF = mustBeZeroOf i := by
  cases i <;> simp only [maskWord, mustBeZeroOf] <;> rfl

theorem opField_and (a b : Word) : opField (a &&& b) = opField a &&& opField b :=
  BitVec.extractLsb'_and

/-- Two words are equal when their opcodes and their other bits are. -/
theorem eq_of_opField_eq_of_low_eq {a b : Word} (hop : opField a = opField b)
    (hlow : a &&& 0x0FFFFFFF = b &&& 0x0FFFFFFF) : a = b := by
  have hmod : ∀ n : Nat, n &&& 0x0FFFFFFF = n % 2 ^ 28 := fun n => Nat.and_two_pow_sub_one_eq_mod n 28
  have hop' := congrArg BitVec.toNat hop
  have hlow' := congrArg BitVec.toNat hlow
  simp only [opField, BitVec.extractLsb'_toNat, Nat.shiftRight_eq_div_pow, BitVec.toNat_and, BitVec.ofNat_eq_ofNat,
    BitVec.toNat_ofNat, Nat.reducePow, Nat.reduceMod, hmod] at hop' hlow'
  apply BitVec.eq_of_toNat_eq
  omega

/-- The row's mask gives the row's match exactly for the row's opcode with the must-be-zero bits clear (R72, R74). -/
theorem and_maskWord_eq_matchWord_iff (w : Word) (i : Instr) :
    w &&& maskWord i = matchWord i ↔ opField w = opcodeOf i ∧ w &&& mustBeZeroOf i = 0 := by
  have hop : opField (w &&& maskWord i) = opField w := by
    rw [opField_and, opField_maskWord]
    exact BitVec.and_allOnes
  rw [← hop, ← opField_matchWord, ← matchWord_low i, ← maskWord_low, ← BitVec.and_assoc]
  exact ⟨fun h => ⟨congrArg opField h, congrArg (· &&& 0x0FFFFFFF) h⟩,
    fun ⟨h, hlow⟩ => eq_of_opField_eq_of_low_eq h hlow⟩

/-! The decoder (R77), row by row. -/

/-- A word with the opcode of `i`: the must-be-zero bits decide (R75, R77). -/
theorem decode_of_opcode {w : Word} (i : Instr) (h : opField w = opcodeOf i) :
    decode w = decodeIfZero w (mustBeZeroOf i) (withOperandsOf w i) := by
  unfold decode
  rw [h]
  cases i <;> rfl

/-- A word of an assigned opcode with a must-be-zero bit set is illegal (R75). -/
theorem decode_of_mustBeZero {w : Word} (i : Instr) (hop : opField w = opcodeOf i) (hm : w &&& mustBeZeroOf i ≠ 0) :
    decode w = .illegal .mustBeZero := by
  rw [decode_of_opcode i hop, decodeIfZero, if_neg hm]

/-- A word with `OP` in 0x9..0xF is illegal (R76). -/
theorem decode_of_reserved {w : Word} (h : 9 ≤ (opField w).toNat) : decode w = .illegal .reservedOpcode := by
  unfold decode
  split
  case h_10 => rfl
  all_goals omega

/-- A word has the opcode of a row, or a reserved one. -/
theorem opField_cases (w : Word) : (∃ i, opField w = opcodeOf i) ∨ 9 ≤ (opField w).toNat := by
  have hall : ∀ op : BitVec 4, op ∈ ([.nop, .keyb 0 0, .keylock, .seed 0, .xorb 0, .frameb 0, .frameend, .rdctr 0,
      .clrerr] : List Instr).map opcodeOf ∨ 9 ≤ op.toNat := by decide
  refine (hall (opField w)).imp_left fun h => ?_
  obtain ⟨i, -, hi⟩ := List.mem_map.mp h
  exact ⟨i, hi.symm⟩

/-- A word decodes to a command exactly when it is of the command's row and holds its operands. -/
theorem decode_eq_instr_iff (w : Word) (i : Instr) :
    decode w = .instr i ↔ w &&& maskWord i = matchWord i ∧ withOperandsOf w i = i := by
  rw [and_maskWord_eq_matchWord_iff]
  constructor
  · intro h
    obtain ⟨j, hop⟩ | hres := opField_cases w
    · rw [decode_of_opcode j hop, decodeIfZero] at h
      split at h
      next hm =>
        obtain rfl := Decoded.instr.inj h
        simp [hop, hm]
      next => contradiction
    · rw [decode_of_reserved hres] at h
      contradiction
  · rintro ⟨⟨hop, hm⟩, hi⟩
    rw [decode_of_opcode i hop, decodeIfZero, if_pos hm, hi]

/-! The encoder (R79). -/

/-- The word of a command is of the command's row. -/
theorem encode_and_maskWord (i : Instr) : encode i &&& maskWord i = matchWord i := by
  cases i with
  | nop => exact Laws.MaskMatch.nop
  | keyb idx byte => exact Laws.MaskMatch.keyb idx byte
  | keylock => exact Laws.MaskMatch.keylock
  | seed v => exact Laws.MaskMatch.seed v
  | xorb byte => exact Laws.MaskMatch.xorb byte
  | frameb byte => exact Laws.MaskMatch.frameb byte
  | frameend => exact Laws.MaskMatch.frameend
  | rdctr idx => exact Laws.MaskMatch.rdctr idx
  | clrerr => exact Laws.MaskMatch.clrerr

/-- The word of a command holds its operands, each in its field (R72). -/
theorem withOperandsOf_encode (i : Instr) : withOperandsOf (encode i) i = i := by
  cases i with
  | nop | keylock | frameend | clrerr => rfl
  | _ =>
    simp only [withOperandsOf, encode, matchWord, operandBits, idxFieldKB, idxFieldN, byteField, seedField]
    congr 1
    all_goals
      ext j hj
      interval_cases j <;> simp

theorem decode_encode (i : Instr) : decode (encode i) = .instr i :=
  (decode_eq_instr_iff _ i).mpr ⟨encode_and_maskWord i, withOperandsOf_encode i⟩

/-- Settles O1, by what makes a word decode to a command: the word of `i` is of its row and holds its operands. -/
theorem decodeOfEncodeIsTheCommand : Obligations.DecodeOfEncodeIsTheCommand :=
  decode_encode

/-- The bits of a word outside a row's mask are the bits of the operands it holds (R72, R74). -/
theorem operandBits_withOperandsOf (w : Word) (i : Instr) :
    operandBits (withOperandsOf w i) = w &&& ~~~maskWord i := by
  cases i with
  | nop | keylock | frameend | clrerr => exact BitVec.and_zero.symm
  | _ =>
    simp only [withOperandsOf, operandBits, maskWord, idxFieldKB, idxFieldN, byteField, seedField]
    ext j hj
    interval_cases j <;> simp

theorem encode_of_decode {w : Word} {i : Instr} (h : decode w = .instr i) : encode i = w := by
  obtain ⟨hrow, hops⟩ := (decode_eq_instr_iff w i).mp h
  calc encode i = matchWord i ||| operandBits (withOperandsOf w i) := by rw [hops, encode]
    _ = w &&& maskWord i ||| w &&& ~~~maskWord i := by rw [hrow, operandBits_withOperandsOf]
    _ = w := by rw [← BitVec.and_or_distrib_left, BitVec.or_not_self, BitVec.and_allOnes]

/-- Settles O2: the row's mask gives the match, and the other bits are the operands'. -/
theorem legalWordIsTheEncodingOfItsCommand : Obligations.LegalWordIsTheEncodingOfItsCommand :=
  fun _ _ h => encode_of_decode h

/-- Settles O3: a word is of a row exactly when its mask gives the match, and it then holds some operands. -/
theorem wordIsTheRowsCommandIffMaskMatches : Obligations.WordIsTheRowsCommandIffMaskMatches := by
  intro w
  simp only [decode_eq_instr_iff, withOperandsOf, maskWord, matchWord, Instr.keyb.injEq, Instr.seed.injEq,
    Instr.xorb.injEq, Instr.frameb.injEq, Instr.rdctr.injEq, exists_and_left, exists_eq', and_true, true_and]
  exact fun h => ⟨_, decode_of_reserved h⟩

/-- A command as its operands: one of the four commands without any, or those of KEYB, SEED, XORB, FRAMEB or RDCTR. -/
def instrEquivOperands :
    Instr ≃ Fin 4 ⊕ (BitVec 4 × Byte) ⊕ Seed ⊕ Byte ⊕ Byte ⊕ BitVec 4 where
  toFun
    | .nop => .inl 0
    | .keylock => .inl 1
    | .frameend => .inl 2
    | .clrerr => .inl 3
    | .keyb idx byte => .inr (.inl (idx, byte))
    | .seed v => .inr (.inr (.inl v))
    | .xorb byte => .inr (.inr (.inr (.inl byte)))
    | .frameb byte => .inr (.inr (.inr (.inr (.inl byte))))
    | .rdctr idx => .inr (.inr (.inr (.inr (.inr idx))))
  invFun
    | .inl 0 => .nop
    | .inl 1 => .keylock
    | .inl 2 => .frameend
    | .inl 3 => .clrerr
    | .inr (.inl (idx, byte)) => .keyb idx byte
    | .inr (.inr (.inl v)) => .seed v
    | .inr (.inr (.inr (.inl byte))) => .xorb byte
    | .inr (.inr (.inr (.inr (.inl byte)))) => .frameb byte
    | .inr (.inr (.inr (.inr (.inr idx)))) => .rdctr idx
  left_inv i := by cases i <;> rfl
  right_inv := by
    rintro (n | _ | _ | _ | _ | _)
    · fin_cases n <;> rfl
    all_goals rfl

/-- 4 + 2^12 + 2^16 + 2^8 + 2^8 + 2^4 commands (R77). -/
theorem card_instr : Nat.card Instr = 70164 := by
  have hbits : ∀ n : Nat, Nat.card (BitVec n) = 2 ^ n := fun n => by
    rw [Nat.card_congr BitVec.equivFin.toEquiv, Nat.card_fin]
  simp only [Nat.card_congr instrEquivOperands, Nat.card_sum, Nat.card_prod, Nat.card_fin, hbits]
  norm_num

theorem encode_injective : Function.Injective encode := by
  intro i j h
  exact Decoded.instr.inj (by rw [← decode_encode i, h, decode_encode])

/-- Settles O4: the legal words are the encodings, one for each command. -/
theorem legalWordsNumber70164 : Obligations.LegalWordsNumber70164 := by
  have hlegal : ∀ w, w ∈ Set.range encode ↔ ∃ i, decode w = .instr i := fun w =>
    ⟨fun ⟨i, hi⟩ => ⟨i, hi ▸ decode_encode i⟩, fun ⟨i, hi⟩ => ⟨i, encode_of_decode hi⟩⟩
  calc Nat.card { w : Word // ∃ i, decode w = .instr i }
      = Nat.card (Set.range encode) := Nat.card_congr (Equiv.subtypeEquivRight fun w => (hlegal w).symm)
    _ = Nat.card Instr := Nat.card_congr (Equiv.ofInjective encode encode_injective).symm
    _ = 70164 := card_instr

/-- Settles O5: each word is decoded by computation. -/
theorem writtenOutWordsDecodeAsTheSpecSays : Obligations.WrittenOutWordsDecodeAsTheSpecSays := by
  unfold Obligations.WrittenOutWordsDecodeAsTheSpecSays
  decide

/-- A word that is no command sets `E_ILL` and `LCAUSE = 1`, is answered refused, and changes nothing else (R75). -/
theorem performWord_of_illegal {w : Word} {why : IllegalWord} (s : State) (h : decode w = .illegal why) :
    performWord w s =
      .next { s with
        eIll := true, lcause := 1
        outbox := s.outbox ++ [respWord false false 0 (status { s with eIll := true, lcause := 1 })] } := by
  rw [performWord_illegal w why s h, refuse, Safety.recordCause_illegal]
  rfl

/-- Settles O6, format by format: a must-be-zero bit makes the word illegal. -/
theorem mustBeZeroBitSetIsRefusedIllegal : Obligations.MustBeZeroBitSetIsRefusedIllegal := by
  refine ⟨fun w s h => performWord_of_illegal s (why := .mustBeZero) ?_, by decide, by decide⟩
  simp only [List.mem_cons, List.not_mem_nil, or_false] at h
  obtain ⟨hop | hop | hop | hop, hm⟩ | ⟨hop, hm⟩ | ⟨hop, hm⟩ | ⟨hop | hop, hm⟩ | ⟨hop, hm⟩ := h
  · exact decode_of_mustBeZero .nop hop hm
  · exact decode_of_mustBeZero .keylock hop hm
  · exact decode_of_mustBeZero .frameend hop hm
  · exact decode_of_mustBeZero .clrerr hop hm
  · exact decode_of_mustBeZero (.keyb 0 0) hop hm
  · exact decode_of_mustBeZero (.seed 0) hop hm
  · exact decode_of_mustBeZero (.xorb 0) hop hm
  · exact decode_of_mustBeZero (.frameb 0) hop hm
  · exact decode_of_mustBeZero (.rdctr 0) hop hm

/-- Settles O7: a reserved opcode makes the word illegal, and a word of NOP is NOP's encoding. -/
theorem reservedOpcodeIsRefusedIllegal : Obligations.ReservedOpcodeIsRefusedIllegal :=
  ⟨fun _ s h => performWord_of_illegal s (decode_of_reserved h), fun _ h => (encode_of_decode h).symm⟩

end Sys2Proof

/-! PROOFS. The assembler: each line's range check, and the words of its commands with the operands whole (R79, R80). -/

namespace Sys2Proof.Machine

/-- A line is assembled exactly where its check holds; else it is rejected (R79). -/
theorem assembleLine_eq_ite {a : Asm} {inRange : Prop} [Decidable inRange] {ws : List Word}
    (hcheck : a.wellFormed = true ↔ inRange) (hwords : inRange → (expand a).map encode = ws) :
    assembleLine a = if inRange then .ok ws else .error .outOfRange := by
  unfold assembleLine
  split
  next h => rw [if_pos (hcheck.mp h), hwords (hcheck.mp h)]
  next h => rw [if_neg fun hr => h (hcheck.mpr hr)]

theorem encode_keyb_ofNat {idx byte : Nat} (hidx : idx ≤ 15) (hbyte : byte ≤ 0xFF) :
    encode (.keyb (BitVec.ofNat 4 idx) (BitVec.ofNat 8 byte)) =
      (0x10000000 : Word) ||| BitVec.ofNat 32 idx <<< 16 ||| BitVec.ofNat 32 byte := by
  rw [encode, operandBits, BitVec.setWidth_ofNat_of_le_of_lt (by decide) (by omega),
    BitVec.setWidth_ofNat_of_le_of_lt (by decide) (by omega), ← BitVec.or_assoc, matchWord]

theorem encode_seed_ofNat {v : Nat} (hv : v ≤ 0xFFFF) :
    encode (.seed (BitVec.ofNat 16 v)) = 0x30000000 ||| BitVec.ofNat 32 v := by
  rw [encode, operandBits, BitVec.setWidth_ofNat_of_le_of_lt (by decide) (by omega), matchWord]

theorem encode_xorb_ofNat {byte : Nat} (hbyte : byte ≤ 0xFF) :
    encode (.xorb (BitVec.ofNat 8 byte)) = 0x40000000 ||| BitVec.ofNat 32 byte := by
  rw [encode, operandBits, BitVec.setWidth_ofNat_of_le_of_lt (by decide) (by omega), matchWord]

theorem encode_frameb_ofNat {byte : Nat} (hbyte : byte ≤ 0xFF) :
    encode (.frameb (BitVec.ofNat 8 byte)) = 0x50000000 ||| BitVec.ofNat 32 byte := by
  rw [encode, operandBits, BitVec.setWidth_ofNat_of_le_of_lt (by decide) (by omega), matchWord]

theorem encode_rdctr_ofNat {idx : Nat} (hidx : idx ≤ 15) :
    encode (.rdctr (BitVec.ofNat 4 idx)) = 0x70000000 ||| BitVec.ofNat 32 idx := by
  rw [encode, operandBits, BitVec.setWidth_ofNat_of_le_of_lt (by decide) (by omega), matchWord]

/-- Settles O8, mnemonic by mnemonic: the range check, then the word. -/
theorem assemblerRejectsAndNeverTruncates : Obligations.AssemblerRejectsAndNeverTruncates := by
  refine ⟨rfl, fun idx byte => ?keyb, rfl, fun v => ?seed, fun byte => ?xorb, fun byte => ?frameb, rfl,
    fun idx => ?rdctr, rfl⟩
  case keyb =>
    exact assembleLine_eq_ite (by simp [Asm.wellFormed, idxInRange, byteInRange]) fun ⟨hidx, hbyte⟩ =>
      congrArg ([·]) (encode_keyb_ofNat hidx hbyte)
  case seed =>
    exact assembleLine_eq_ite (by simp [Asm.wellFormed, seedInRange]) fun hv =>
      congrArg ([·]) (encode_seed_ofNat hv)
  case xorb =>
    exact assembleLine_eq_ite (by simp [Asm.wellFormed, byteInRange]) fun hbyte =>
      congrArg ([·]) (encode_xorb_ofNat hbyte)
  case frameb =>
    exact assembleLine_eq_ite (by simp [Asm.wellFormed, byteInRange]) fun hbyte =>
      congrArg ([·]) (encode_frameb_ofNat hbyte)
  case rdctr =>
    exact assembleLine_eq_ite (by simp [Asm.wellFormed, idxInRange]) fun hidx =>
      congrArg ([·]) (encode_rdctr_ofNat hidx)

/-- The words of LOADKEY: KEYB for each byte in index order, then KEYLOCK (R80). -/
theorem map_encode_expand_loadkey {bytes : List Nat} (hlen : bytes.length = 16) (hbytes : ∀ b ∈ bytes, b ≤ 0xFF) :
    (expand (.loadkey bytes)).map encode =
      (bytes.mapIdx fun i b => (0x10000000 : Word) ||| BitVec.ofNat 32 i <<< 16 ||| BitVec.ofNat 32 b) ++
        [0x20000000] := by
  rw [expand, List.map_append, List.map_singleton]
  congr 1
  refine List.ext_getElem (by simp) fun i hi _ => ?_
  have hi' : i < bytes.length := by simpa using hi
  simp only [List.getElem_map, List.getElem_mapIdx]
  exact encode_keyb_ofNat (by omega) (hbytes _ (List.getElem_mem hi'))

theorem map_encode_expand_decrypt {v : Nat} {bytes : List Nat} (hv : v ≤ 0xFFFF)
    (hbytes : ∀ b ∈ bytes, b ≤ 0xFF) :
    (expand (.decrypt v bytes)).map encode =
      (0x30000000 ||| BitVec.ofNat 32 v) :: bytes.map fun b => 0x40000000 ||| BitVec.ofNat 32 b := by
  rw [expand, List.map_cons, encode_seed_ofNat hv, List.map_map]
  exact congrArg _ (List.map_congr_left fun b hb => encode_xorb_ofNat (hbytes b hb))

theorem map_encode_expand_frame {bytes : List Nat} (hbytes : ∀ b ∈ bytes, b ≤ 0xFF) :
    (expand (.frame bytes)).map encode =
      (bytes.map fun b => 0x50000000 ||| BitVec.ofNat 32 b) ++ [0x60000000] := by
  rw [expand, framebEach, List.map_append, List.map_singleton, List.map_map]
  exact congrArg (· ++ _) (List.map_congr_left fun b hb => encode_frameb_ofNat (hbytes b hb))

/-- The words of an assembled line decode to its commands. -/
theorem map_decode_of_assembleLine {a : Asm} {ws : List Word} (h : assembleLine a = .ok ws) :
    ws.map decode = (expand a).map Decoded.instr := by
  unfold assembleLine at h
  split at h
  next =>
    obtain rfl := Except.ok.inj h
    rw [List.map_map]
    exact List.map_congr_left fun i _ => decode_encode i
  next => contradiction

/-- Settles O59, line by line: the range check, then the words of the expansion. -/
theorem pseudoInstructionsBecomeTheirExpansions : Obligations.PseudoInstructionsBecomeTheirExpansions := by
  refine ⟨rfl, fun bytes => ?loadkey, fun v bytes => ?decrypt, fun bytes => ?frame, rfl,
    fun a ws => map_decode_of_assembleLine⟩
  case loadkey =>
    exact assembleLine_eq_ite (by simp [Asm.wellFormed, byteInRange]) fun ⟨hlen, hbytes⟩ =>
      map_encode_expand_loadkey hlen hbytes
  case decrypt =>
    exact assembleLine_eq_ite (by simp [Asm.wellFormed, seedInRange, byteInRange]) fun ⟨hv, hbytes⟩ =>
      map_encode_expand_decrypt hv hbytes
  case frame =>
    exact assembleLine_eq_ite (by simp [Asm.wellFormed, byteInRange]) map_encode_expand_frame

end Sys2Proof.Machine

/-! PROOFS. The commands of LOADKEY and of READIV, run to their end (R80, R100, R101, R112). -/

namespace Sys2Proof.Safety

open Sys2Proof.Machine

theorem issue_append (is js : List Instr) : issue (is ++ js) = issue is ++ issue js :=
  List.map_append

/-- A step with a command issued next executes it. -/
theorem step_of_issue {s t : State} {i : Instr} {rest : List HostEvent} (h : s.inbox = .cmd (encode i) :: rest)
    (he : exec i (setInbox rest s) = .next t) : step s = .next t :=
  step_of_cmd s t (encode i) i rest (decode_encode i) h he

theorem acceptedPlain_respWord (data : Byte) (st : BitVec 16) : acceptedPlain (respWord true false data st) := by
  simp [acceptedPlain]

theorem acceptedData_respWord (data : Byte) (st : BitVec 16) : acceptedData (respWord true true data st) := by
  simp [acceptedData]

/-! The sixteen byte positions of a block. -/

/-- The positions 0 to 15 in order. -/
def byteIndices : List (BitVec 4) := (List.range 16).map (BitVec.ofNat 4)

theorem byteIndices_length : byteIndices.length = 16 := rfl

theorem mem_byteIndices (i : BitVec 4) : i ∈ byteIndices := by
  revert i
  decide

theorem map_byteIndices_getElem (b : Block) : byteIndices.map (fun i => b[i.toNat]) = b.toList := by
  refine List.ext_getElem (by simp [byteIndices]) fun j hj hj' => ?_
  have hj16 : j < 16 := by simpa using hj'
  simp [byteIndices, Nat.mod_eq_of_lt hj16]

/-! KEYB after KEYB. -/

/-- `key` with its bytes at the positions `idxs` written over with those of `k`. -/
def copyBytes (k : Block) (idxs : List (BitVec 4)) (key : Block) : Block :=
  idxs.foldl (fun key i => key.set i.toNat k[i.toNat]) key

theorem copyBytes_cons (k : Block) (i : BitVec 4) (idxs : List (BitVec 4)) (key : Block) :
    copyBytes k (i :: idxs) key = copyBytes k idxs (key.set i.toNat k[i.toNat]) :=
  rfl

/-- A byte that is written over, or equal from the start, ends as that of `k`. -/
theorem copyBytes_getElem (k : Block) (idxs : List (BitVec 4)) (key : Block) (j : Nat) (hj : j < 16)
    (h : key[j] = k[j] ∨ ∃ i ∈ idxs, i.toNat = j) : (copyBytes k idxs key)[j] = k[j] := by
  induction idxs generalizing key with
  | nil => simpa [copyBytes] using h
  | cons i idxs ih =>
    rw [copyBytes_cons]
    apply ih
    by_cases hij : i.toNat = j
    · subst hij
      exact .inl (Vector.getElem_set_self _)
    · rw [Vector.getElem_set_ne _ _ hij]
      simpa [hij] using h

/-- With every byte written over, nothing of the old key is left. -/
theorem copyBytes_byteIndices (k key : Block) : copyBytes k byteIndices key = k := by
  ext j hj : 1
  have hidx : (BitVec.ofNat 4 j).toNat = j := by simpa using hj
  exact copyBytes_getElem k byteIndices key j hj (.inr ⟨BitVec.ofNat 4 j, mem_byteIndices _, hidx⟩)

/-- KEYB of the bytes of `k` at `idxs`, with the key unlocked, writes those bytes, every one accepted (R100). -/
theorem run_keybs (k : Block) (idxs : List (BitVec 4)) (n : Nat) (s : State) (rest : List HostEvent)
    (hlock : s.klock = false) (h : s.inbox = issue (idxs.map fun i => .keyb i k[i.toNat]) ++ rest) :
    ∃ rs, run (idxs.length + n) s =
        run n { s with key := copyBytes k idxs s.key, inbox := rest, outbox := s.outbox ++ rs } ∧
      rs.length = idxs.length ∧ ∀ r ∈ rs, acceptedPlain r := by
  induction idxs generalizing s with
  | nil =>
    obtain rfl : s.inbox = rest := h
    exact ⟨[], by simp [copyBytes], rfl, by simp⟩
  | cons i idxs ih =>
    let s' := setInbox (issue (idxs.map fun i => .keyb i k[i.toNat]) ++ rest) s
    let t := accept (writeKey i k[i.toNat] s')
    have hstep : step s = .next t := step_of_issue h (execKeyb_unlocked i k[i.toNat] s' hlock)
    obtain ⟨rs, hrun, hlen, hacc⟩ := ih t hlock rfl
    refine ⟨respWord true false 0 (status s) :: rs, ?_, congrArg (· + 1) hlen,
      List.forall_mem_cons.mpr ⟨acceptedPlain_respWord 0 (status s), hacc⟩⟩
    rw [List.length_cons, Nat.add_right_comm, run_succ_of_step _ s t hstep, hrun, List.append_cons]
    rfl

/-- LOADKEY is KEYB of every byte in index order, then KEYLOCK (R80). -/
theorem expand_loadkey (k : Block) :
    expand (.loadkey (k.toList.map BitVec.toNat)) = (byteIndices.map fun i => .keyb i k[i.toNat]) ++ [.keylock] := by
  rw [expand]
  congr 1
  refine List.ext_getElem (by simp [byteIndices]) fun j hj _ => ?_
  have hj16 : j < 16 := by simpa using hj
  simp [byteIndices, Nat.mod_eq_of_lt hj16]

/-- Settles O20: the sixteen KEYBs write the whole key, and KEYLOCK locks it. -/
theorem loadKeyLeavesTheKeyLocked : Obligations.LoadKeyLeavesTheKeyLocked := by
  intro s k rest hlock h
  rw [expand_loadkey, issue_append, List.append_assoc] at h
  obtain ⟨rs, hrun, hlen, hacc⟩ := run_keybs k byteIndices 1 s _ hlock h
  rw [byteIndices_length, copyBytes_byteIndices] at hrun
  let u : State := { s with key := k, inbox := issue [.keylock] ++ rest, outbox := s.outbox ++ rs }
  let t := accept (lockKey (setInbox rest u))
  have hstep : step u = .next t := step_of_issue rfl (execKeylock_unlocked (setInbox rest u) hlock)
  refine ⟨t, rs ++ [respWord true false 0 (status (lockKey (setInbox rest u)))],
    hrun.trans (run_succ_of_step 0 u t hstep), ⟨rfl, rfl⟩, rfl, List.append_assoc .., ?_, ?_, rfl, rfl, rfl, rfl⟩
  · simp [hlen, byteIndices_length]
  · exact List.forall_mem_append.mpr ⟨hacc, List.forall_mem_singleton.mpr (acceptedPlain_respWord 0 _)⟩

/-! RDCTR after RDCTR. -/

/-- RDCTR of the bytes at `idxs` answers them in order and changes nothing else (R112). -/
theorem run_rdctrs (idxs : List (BitVec 4)) (s : State) (rest : List HostEvent)
    (h : s.inbox = issue (idxs.map .rdctr) ++ rest) :
    ∃ rs, run idxs.length s = .next { s with inbox := rest, outbox := s.outbox ++ rs } ∧
      (∀ q ∈ rs, acceptedData q) ∧ rs.map respData = idxs.map fun i => s.ctr[i.toNat] := by
  induction idxs generalizing s with
  | nil =>
    obtain rfl : s.inbox = rest := h
    exact ⟨[], by simp [run_zero], by simp, rfl⟩
  | cons i idxs ih =>
    let t := acceptData (readCtr i s) (setInbox (issue (idxs.map .rdctr) ++ rest) s)
    have hstep : step s = .next t := step_of_issue h rfl
    obtain ⟨rs, hrun, hacc, hdata⟩ := ih t rfl
    refine ⟨respWord true true (readCtr i s) (status s) :: rs, ?_,
      List.forall_mem_cons.mpr ⟨acceptedData_respWord _ _, hacc⟩, ?_⟩
    · rw [List.length_cons, run_succ_of_step _ s t hstep, hrun, List.append_cons]
      rfl
    · rw [List.map_cons, List.map_cons, respData_respWord, hdata]
      rfl

theorem leBytes_zero (n : Nat) : leBytes n 0 = List.replicate n 0 := by
  induction n with
  | zero => rfl
  | succ n ih => simp [leBytes, ih, List.replicate_succ]

/-- The initial counter block of a seed: its low byte, its high byte and zeros (R110). -/
theorem nonceExpand_toList (v : Seed) :
    (nonceExpand v).toList = v.extractLsb' 0 8 :: v.extractLsb' 8 8 :: List.replicate 14 0 := by
  have hv := v.isLt
  have hhigh : v.toNat / 256 / 256 = 0 := by omega
  have hbytes : leBytes 16 v.toNat =
      BitVec.ofNat 8 v.toNat :: BitVec.ofNat 8 (v.toNat / 256) :: leBytes 14 (v.toNat / 256 / 256) := rfl
  rw [nonceExpand, reverseBlock_beBlock, leBlock_toList, hbytes, hhigh, leBytes_zero]
  simp [BitVec.extractLsb', Nat.shiftRight_eq_div_pow]

/-- READIV is RDCTR of every byte in index order (R80). -/
theorem expand_readiv : expand .readiv = byteIndices.map .rdctr :=
  rfl

/-- Settles O26: SEED loads the initial counter block, and the RDCTRs answer its bytes in order. -/
theorem readIvAfterSeedReturnsTheInitialBlock : Obligations.ReadIvAfterSeedReturnsTheInitialBlock := by
  intro s v rest h
  rw [expand_readiv] at h
  let u := loadSeed v (setInbox (issue (byteIndices.map .rdctr) ++ rest) s)
  have hstep : step s = .next (accept u) := step_of_issue h rfl
  obtain ⟨rs, hrun, hacc, hdata⟩ := run_rdctrs byteIndices (accept u) rest rfl
  have hout : (accept u).outbox ++ rs = s.outbox ++ (respWord true false 0 (status u) :: rs) := by
    simp [u]
  rw [map_byteIndices_getElem, accept_ctr, loadSeed_ctr, nonceExpand_toList] at hdata
  exact ⟨_, _, rs, (run_succ_of_step 16 s _ hstep).trans hrun, rfl, hout, acceptedPlain_respWord 0 _, hacc, hdata⟩

end Sys2Proof.Safety

/-! PROOFS. The key store commands: KEYB and KEYLOCK on an unlocked key, and their refusal once it is locked. -/

namespace Sys2Proof.Machine

/-- The cause `KEYLOCKED` sets `E_KLOCK` and `LCAUSE`, and nothing else (R203). -/
theorem recordCause_keylocked (s : State) : recordCause .keylocked s = { s with eKlock := true, lcause := 4 } := by
  simp [recordCause, causeCode]

/-- Settles O16: unlocked, KEYB is `writeKey`, and STATUS does not show the key. -/
theorem keybWritesItsByteWhileUnlocked : Obligations.KeybWritesItsByteWhileUnlocked := by
  intro idx byte s hlock
  have hstatus : status (writeKey idx byte s) = status s := rfl
  rw [execKeyb_unlocked idx byte s hlock, accept, respond, hstatus]
  rfl

/-- Settles O17: unlocked, KEYLOCK is `lockKey`, and its STATUS shows the lock. -/
theorem keylockSetsTheLock : Obligations.KeylockSetsTheLock := by
  intro s hlock
  exact execKeylock_unlocked s hlock

/-- Settles O18: locked, both commands are the one refusal, whose writes are those of its cause. -/
theorem lockedKeyCommandsAreRefused : Obligations.LockedKeyCommandsAreRefused := by
  intro idx byte s hlock t u
  have hrefuse : refuse .keylocked s = u := by
    rw [refuse, recordCause_keylocked]
    rfl
  rw [execKeyb_locked idx byte s hlock, execKeylock_locked s hlock, hrefuse]
  exact ⟨rfl, rfl⟩

end Sys2Proof.Machine

/-! PROOFS. Nonce expansion: the bytes of the initial counter block, and the commands SEED and RDCTR. -/

namespace Sys2Proof.Machine

/-- Byte `i` of the big-endian block of a seed is its bits from `8(15 - i)` up. -/
theorem beBlock_seed_getElem (v : Seed) (i : Nat) (h : i < 16) :
    (beBlock v.toNat)[i] = v.extractLsb' (8 * (15 - i)) 8 :=
  beBlock_getElem v.toNat i h

/-- A seed has no bits from 16 up. -/
theorem seed_extractLsb'_eq_zero (v : Seed) (start : Nat) (h : 16 ≤ start) : v.extractLsb' start 8 = 0 := by
  ext j hj
  simp [BitVec.getLsbD_of_ge v (start + j) (by omega)]

theorem nonceExpand_getElem (v : Seed) (i : Nat) (h : i < 16) : (nonceExpand v)[i] = (beBlock v.toNat)[15 - i] :=
  reverseBlock_getElem (beBlock v.toNat) i h

theorem nonceExpand_eq_leBlock (v : Seed) : nonceExpand v = leBlock v.toNat :=
  reverseBlock_beBlock v.toNat

/-- The seed is the little-endian value of its initial counter block. -/
theorem intLE_nonceExpand (v : Seed) : intLE (nonceExpand v) = v.toNat := by
  have hv := v.isLt
  rw [nonceExpand_eq_leBlock, intLE_leBlock]
  omega

theorem nonceExpand_injective {v w : Seed} (h : nonceExpand v = nonceExpand w) : v = w :=
  BitVec.eq_of_toNat_eq (by rw [← intLE_nonceExpand v, h, intLE_nonceExpand w])

/-- Settles O22: the bytes of the big-endian block are bits of the seed, and its reversal is the little-endian block. -/
theorem nonceExpandReversesTheBigEndianBlock : Obligations.NonceExpandReversesTheBigEndianBlock := by
  refine fun v => ⟨beBlock_seed_getElem v 14 (by decide), beBlock_seed_getElem v 15 (by decide), fun i h => ?_,
    nonceExpand_getElem v, nonceExpand_eq_leBlock v⟩
  rw [beBlock_seed_getElem v i (by omega)]
  exact seed_extractLsb'_eq_zero v _ (by omega)

/-- Settles O23: the block's little-endian value gives the seed back, and its bytes from 2 up lie past the seed's bits. -/
theorem nonceExpandIsInjective : Obligations.NonceExpandIsInjective := by
  refine ⟨fun v w => nonceExpand_injective, fun v i h hi => ?_⟩
  rw [nonceExpand_getElem v i h, beBlock_seed_getElem v (15 - i) (by omega)]
  exact seed_extractLsb'_eq_zero v _ (by omega)

theorem exec_seed (v : Seed) (s : State) : exec (.seed v) s = .next (accept (loadSeed v s)) :=
  rfl

theorem exec_rdctr (idx : BitVec 4) (s : State) : exec (.rdctr idx) s = .next (acceptData (readCtr idx s) s) :=
  rfl

/-- Settles O24: SEED accepts after `loadSeed`, which writes `CTR`, `KIDX` and `CVALID` alone. -/
theorem seedLoadsTheCounter : Obligations.SeedLoadsTheCounter := by
  intro v s
  exact exec_seed v s

/-- Settles O25: RDCTR answers with `readCtr` from the state as it stands. -/
theorem rdctrReturnsTheCounterByte : Obligations.RdctrReturnsTheCounterByte := by
  intro idx s
  exact exec_rdctr idx s

end Sys2Proof.Machine

/-! PROOFS. The field GF(2^8): `xtime` and `gmul` are additive, so a statement about every byte follows by building the
byte up from 1 with XOR and `xtime`. -/

namespace Sys2Proof.Machine

theorem xtime_eq (a : Byte) : xtime a = (a <<< 1) ^^^ (if a.getLsbD 7 then 0x1B else 0) := by
  revert a
  decide +kernel

theorem xtime_zero : xtime 0 = 0 := rfl

/-- A byte times one bit. -/
def bitTimes (p : Bool) (a : Byte) : Byte := if p then a else 0

theorem bitTimes_xor_left (p q : Bool) (a : Byte) : bitTimes (p ^^ q) a = bitTimes p a ^^^ bitTimes q a := by
  cases p <;> cases q <;> simp [bitTimes]

theorem bitTimes_xor_right (p : Bool) (a a' : Byte) : bitTimes p (a ^^^ a') = bitTimes p a ^^^ bitTimes p a' := by
  cases p <;> simp [bitTimes]

theorem xtime_xor (a b : Byte) : xtime (a ^^^ b) = xtime a ^^^ xtime b := by
  have hxtime (c : Byte) : xtime c = (c <<< 1) ^^^ bitTimes (c.getLsbD 7) 0x1B := xtime_eq c
  simp only [hxtime, BitVec.getLsbD_xor, BitVec.shiftLeft_xor_distrib, bitTimes_xor_left]
  ac_rfl

theorem xtime_bitTimes (p : Bool) (a : Byte) : xtime (bitTimes p a) = bitTimes p (xtime a) := by
  cases p
  · exact xtime_zero
  · rfl

/-- One round of `gmul` adds the bit's multiple of `a` and goes on with `xtime a`. -/
theorem gmulRounds_succ (n i : Nat) (a b r : Byte) :
    gmulRounds (n + 1) i a b r = gmulRounds n (i + 1) (xtime a) b (r ^^^ bitTimes (b.getLsbD i) a) := by
  rw [gmulRounds, bitTimes]
  split
  · rfl
  · rw [BitVec.ofNat_eq_ofNat, BitVec.xor_zero]

theorem gmulRounds_xor_left (n i : Nat) (a a' b r r' : Byte) :
    gmulRounds n i (a ^^^ a') b (r ^^^ r') = gmulRounds n i a b r ^^^ gmulRounds n i a' b r' := by
  induction n generalizing i a a' r r' with
  | zero => rfl
  | succ n ih =>
    rw [gmulRounds_succ, gmulRounds_succ, gmulRounds_succ, ← ih, xtime_xor, bitTimes_xor_right]
    congr 1
    ac_rfl

theorem gmulRounds_xor_right (n i : Nat) (a b b' r r' : Byte) :
    gmulRounds n i a (b ^^^ b') (r ^^^ r') = gmulRounds n i a b r ^^^ gmulRounds n i a b' r' := by
  induction n generalizing i a r r' with
  | zero => rfl
  | succ n ih =>
    rw [gmulRounds_succ, gmulRounds_succ, gmulRounds_succ, ← ih, BitVec.getLsbD_xor, bitTimes_xor_left]
    congr 1
    ac_rfl

theorem gmulRounds_xtime_left (n i : Nat) (a b r : Byte) :
    gmulRounds n i (xtime a) b (xtime r) = xtime (gmulRounds n i a b r) := by
  induction n generalizing i a r with
  | zero => rfl
  | succ n ih => rw [gmulRounds_succ, gmulRounds_succ, ← ih, xtime_xor, xtime_bitTimes]

/-- What XOR and `xtime` keep is kept by the rounds of `gmul`. -/
theorem gmulRounds_induction {P : Byte → Prop} (hxor : ∀ a b, P a → P b → P (a ^^^ b))
    (hxtime : ∀ a, P a → P (xtime a)) (n i : Nat) (a b r : Byte) (ha : P a) (hr : P r) : P (gmulRounds n i a b r) := by
  induction n generalizing i a r with
  | zero => exact hr
  | succ n ih =>
    refine ih (i + 1) (xtime a) _ (hxtime a ha) ?_
    split
    · exact hxor r a hr ha
    · exact hr

theorem gmul_xor_left (a a' b : Byte) : gmul (a ^^^ a') b = gmul a b ^^^ gmul a' b :=
  gmulRounds_xor_left 8 0 a a' b 0 0

theorem gmul_xor_right (a b b' : Byte) : gmul a (b ^^^ b') = gmul a b ^^^ gmul a b' :=
  gmulRounds_xor_right 8 0 a b b' 0 0

theorem gmul_xtime_left (a b : Byte) : gmul (xtime a) b = xtime (gmul a b) :=
  gmulRounds_xtime_left 8 0 a b 0

theorem gmul_zero_left (b : Byte) : gmul 0 b = 0 := by
  have h := gmul_xor_left 0 0 b
  rwa [BitVec.xor_self, BitVec.xor_self] at h

theorem gmul_zero_right (a : Byte) : gmul a 0 = 0 := by
  have h := gmul_xor_right a 0 0
  rwa [BitVec.xor_self, BitVec.xor_self] at h

theorem gmul_one_left (b : Byte) : gmul 1 b = b := by
  revert b
  decide +kernel

theorem gmul_one_right (a : Byte) : gmul a 1 = a := by
  simp [gmul, gmulRounds]

/-- The bytes are the polynomials in x: each is built from 0 and 1 by XOR and `xtime`. -/
theorem byte_induction {P : Byte → Prop} (hzero : P 0) (hone : P 1) (hxor : ∀ a b, P a → P b → P (a ^^^ b))
    (hxtime : ∀ a, P a → P (xtime a)) (a : Byte) : P a := by
  rw [← gmul_one_left a]
  exact gmulRounds_induction hxor hxtime 8 0 1 a 0 hone hzero

theorem gmul_xtime_right (a b : Byte) : gmul a (xtime b) = xtime (gmul a b) := by
  induction a using byte_induction with
  | hzero => rw [gmul_zero_left, gmul_zero_left, xtime_zero]
  | hone => rw [gmul_one_left, gmul_one_left]
  | hxor a a' ha ha' => rw [gmul_xor_left, ha, ha', gmul_xor_left, xtime_xor]
  | hxtime a ha => rw [gmul_xtime_left, ha, gmul_xtime_left]

theorem gmul_comm (a b : Byte) : gmul a b = gmul b a := by
  induction a using byte_induction with
  | hzero => rw [gmul_zero_left, gmul_zero_right]
  | hone => rw [gmul_one_left, gmul_one_right]
  | hxor a a' ha ha' => rw [gmul_xor_left, ha, ha', gmul_xor_right]
  | hxtime a ha => rw [gmul_xtime_left, ha, gmul_xtime_right]

theorem gmul_assoc (a b c : Byte) : gmul (gmul a b) c = gmul a (gmul b c) := by
  induction a using byte_induction with
  | hzero => rw [gmul_zero_left, gmul_zero_left, gmul_zero_left]
  | hone => rw [gmul_one_left, gmul_one_left]
  | hxor a a' ha ha' => rw [gmul_xor_left, gmul_xor_left, ha, ha', gmul_xor_left]
  | hxtime a ha => rw [gmul_xtime_left, gmul_xtime_left, ha, gmul_xtime_left]

theorem gmul_two (a : Byte) : gmul a 2 = xtime a := by
  have h := gmul_xtime_right a 1
  rwa [gmul_one_right] at h

theorem gmul_three (a : Byte) : gmul a 3 = xtime a ^^^ a := by
  have h := gmul_xor_right a 2 1
  rwa [gmul_two, gmul_one_right] at h

/-- The affine map of R124: the byte, XORed with its first four rotations and `0x63`. -/
def affineMap (b : Byte) : Byte :=
  b ^^^ b.rotateLeft 1 ^^^ b.rotateLeft 2 ^^^ b.rotateLeft 3 ^^^ b.rotateLeft 4 ^^^ 0x63

/-- The byte whose image under `affineMap` is the S-box value of `a` (`sbox_eq_affineMap`): the inverse affine map of the
table's entry. -/
def sboxPreimage (a : Byte) : Byte :=
  (sbox a).rotateLeft 1 ^^^ (sbox a).rotateLeft 3 ^^^ (sbox a).rotateLeft 6 ^^^ 0x05

theorem affineMap_inverse (y : Byte) :
    affineMap (y.rotateLeft 1 ^^^ y.rotateLeft 3 ^^^ y.rotateLeft 6 ^^^ 0x05) = y := by
  revert y
  decide +kernel

theorem sbox_eq_affineMap (a : Byte) : sbox a = affineMap (sboxPreimage a) :=
  (affineMap_inverse (sbox a)).symm

theorem sboxPreimage_zero : sboxPreimage 0 = 0 := by
  decide +kernel

/-- The table of R124 holds the field's inverses, read back through the affine map. -/
theorem gmul_sboxPreimage : ∀ a : Byte, a ≠ 0 → gmul a (sboxPreimage a) = 1 := by
  decide +kernel

/-- Settles O29: the laws by building the first factor up from 1; the inverses are those the S-box is made of. -/
theorem gmulIsFieldMultiplication : Obligations.GmulIsFieldMultiplication :=
  ⟨fun a b c => ⟨gmul_comm a b, gmul_assoc a b c, gmul_xor_right a b c, gmul_one_right a, gmul_two a,
      gmul_xtime_left a b⟩,
    fun a => ⟨xtime_eq a, fun ha => ⟨sboxPreimage a, gmul_sboxPreimage a ha⟩⟩⟩

/-- Settles O28: the inverse is the S-box value's preimage under the affine map. -/
theorem sboxIsTheAffineMapOfTheInverse : Obligations.SboxIsTheAffineMapOfTheInverse := by
  intro a
  refine ⟨sboxPreimage a, ?_, gmul_sboxPreimage a, sbox_eq_affineMap a⟩
  rintro rfl
  exact sboxPreimage_zero

end Sys2Proof.Machine

/-! PROOFS. The transforms of a round, byte by byte, and MixColumns over the field. -/

namespace Sys2Proof.Machine

theorem subBytes_getElem (s : Block) (i : Nat) (h : i < 16) : (subBytes s)[i] = sbox s[i] :=
  Vector.getElem_map sbox h

theorem row_of_index {r : Nat} (c : Nat) (hr : r < 4) : (r + 4 * c) % 4 = r := by
  omega

theorem column_of_index {r : Nat} (c : Nat) (hr : r < 4) : (r + 4 * c) / 4 = c := by
  omega

theorem shiftRows_getElem (s : Block) (r c : Nat) (hr : r < 4) (hc : c < 4) :
    (shiftRows s)[r + 4 * c] = s[r + 4 * ((c + r) % 4)] := by
  simp only [shiftRows, Vector.getElem_ofFn, row_of_index c hr, column_of_index c hr]

theorem addRoundKey_getElem (w : List KeyWord) (rnd : Nat) (s : Block) (r c : Nat) (hr : r < 4) (hc : c < 4) :
    (addRoundKey w rnd s)[r + 4 * c] = s[r + 4 * c] ^^^ (w.getD (4 * rnd + c) zeroWord)[r] := by
  simp only [addRoundKey, Vector.getElem_ofFn, Fin.getElem_fin, row_of_index c hr, column_of_index c hr]

/-- AddRoundKey reads a round's four words and no others. -/
theorem addRoundKey_congr {w w' : List KeyWord} {rnd : Nat} (b : Block)
    (h : ∀ c : Nat, c < 4 → w[4 * rnd + c]? = w'[4 * rnd + c]?) : addRoundKey w rnd b = addRoundKey w' rnd b := by
  have hword (i : Fin 16) : w.getD (4 * rnd + i.val / 4) zeroWord = w'.getD (4 * rnd + i.val / 4) zeroWord := by
    rw [List.getD_eq_getElem?_getD, List.getD_eq_getElem?_getD, h (i.val / 4) (by omega)]
  simp only [addRoundKey, hword]

/-- Settles O31: each transform's byte at row `r` and column `c`, by its own lemma. -/
theorem roundTransformsActByRowAndColumn : Obligations.RoundTransformsActByRowAndColumn := by
  refine fun s r c hr hc =>
    ⟨subBytes_getElem s (r + 4 * c) (by omega), shiftRows_getElem s r c hr hc, fun w rnd x hx => ?_⟩
  rw [addRoundKey_getElem w rnd s r c hr hc, List.getD_eq_getElem?_getD, hx, Option.getD_some]

theorem mixColumns_getElem (s : Block) (r c : Nat) (hr : r < 4) (hc : c < 4) :
    (mixColumns s)[r + 4 * c] = mixByte r s[4 * c] s[1 + 4 * c] s[2 + 4 * c] s[3 + 4 * c] := by
  simp only [mixColumns, Vector.getElem_ofFn, row_of_index c hr, column_of_index c hr, Nat.add_comm (4 * c)]

/-- Settles O32: `mixByte` is the four rows with `xtime` for the products by 2 and `times3` for those by 3. -/
theorem mixColumnsMultipliesByTheMatrix : Obligations.MixColumnsMultipliesByTheMatrix := by
  refine ⟨fun s c hc => ?_, fun a => ⟨gmul_two a, gmul_three a⟩⟩
  simp only [gmul_two, gmul_three]
  have hrow (r : Nat) (hr : r < 4) := mixColumns_getElem s r c hr hc
  have hrow0 := hrow 0 (by decide)
  simp only [Nat.zero_add] at hrow0
  exact ⟨hrow0, hrow 1 (by decide), hrow 2 (by decide), hrow 3 (by decide)⟩

end Sys2Proof.Machine

/-! PROOFS. The key expansion: its words from the newest back, and the recurrence they meet; the reference vectors. -/

namespace Sys2Proof.Machine

theorem xorWord_eq (a b : KeyWord) :
    xorWord a b = #v[a[0] ^^^ b[0], a[1] ^^^ b[1], a[2] ^^^ b[2], a[3] ^^^ b[3]] := rfl

/-- At a multiple of 4 the word before goes through RotWord, SubWord and the round constant. -/
theorem nextKeyWord_of_multiple {j : Nat} {ws : List KeyWord} {p q : KeyWord} (hj : j % 4 = 0) (hp : ws[0]? = some p)
    (hq : ws[3]? = some q) :
    nextKeyWord j ws = #v[q[0] ^^^ (sbox p[1] ^^^ rcon (j / 4)), q[1] ^^^ sbox p[2], q[2] ^^^ sbox p[3],
      q[3] ^^^ sbox p[0]] := by
  simp [nextKeyWord, hj, hp, hq, xorWord_eq, subWord, rotWord]

theorem nextKeyWord_of_not_multiple {j : Nat} {ws : List KeyWord} {p q : KeyWord} (hj : j % 4 ≠ 0) (hp : ws[0]? = some p)
    (hq : ws[3]? = some q) :
    nextKeyWord j ws = #v[q[0] ^^^ p[0], q[1] ^^^ p[1], q[2] ^^^ p[2], q[3] ^^^ p[3]] := by
  simp [nextKeyWord, hj, hp, hq, xorWord_eq]

/-- The first `n + 4` words of the key expansion, the newest first. -/
def newestKeyWords (k : Block) : Nat → List KeyWord
  | 0 => [#v[k[12], k[13], k[14], k[15]], #v[k[8], k[9], k[10], k[11]],
     #v[k[4], k[5], k[6], k[7]], #v[k[0], k[1], k[2], k[3]]]
  | n + 1 => nextKeyWord (4 + n) (newestKeyWords k n) :: newestKeyWords k n

theorem newestKeyWords_eq_foldl (k : Block) (n : Nat) :
    newestKeyWords k n =
      (List.range' 4 n).foldl (fun ws j => nextKeyWord j ws :: ws) (newestKeyWords k 0) := by
  induction n with
  | zero => rfl
  | succ n ih => rw [List.range'_1_concat, List.foldl_concat, ← ih, newestKeyWords]

theorem keyExpansion_eq_reverse (k : Block) : keyExpansion k = (newestKeyWords k 40).reverse := by
  rw [newestKeyWords_eq_foldl]
  rfl

theorem newestKeyWords_length (k : Block) (n : Nat) : (newestKeyWords k n).length = n + 4 := by
  induction n with
  | zero => rfl
  | succ n ih => rw [newestKeyWords, List.length_cons, ih]

/-- Later words are put in front and leave the others where they are. -/
theorem newestKeyWords_getElem?_add (k : Block) (n d i : Nat) :
    (newestKeyWords k (n + d))[i + d]? = (newestKeyWords k n)[i]? := by
  induction d with
  | zero => rfl
  | succ d ih => rw [← Nat.add_assoc, ← Nat.add_assoc, newestKeyWords, List.getElem?_cons_succ, ih]

/-- Word `j` is entry `n + 3 - j` of the first `n + 4` words. -/
theorem keyExpansion_getElem? (k : Block) {n j : Nat} (hn : n ≤ 40) (hj : j < n + 4) :
    (keyExpansion k)[j]? = (newestKeyWords k n)[n + 3 - j]? := by
  have hlen := newestKeyWords_length k 40
  have hentry := newestKeyWords_getElem?_add k n (40 - n) (n + 3 - j)
  have hn40 : n + (40 - n) = 40 := by omega
  have hindex : n + 3 - j + (40 - n) = 43 - j := by omega
  rw [hn40, hindex] at hentry
  rw [keyExpansion_eq_reverse, List.getElem?_reverse (by omega), hlen, ← hentry]

theorem keyExpansion_length (k : Block) : (keyExpansion k).length = 44 := by
  rw [keyExpansion_eq_reverse, List.length_reverse, newestKeyWords_length]

theorem keyExpansion_column (k : Block) (j : Nat) (h : j < 4) :
    (keyExpansion k)[j]? = some #v[k[4 * j], k[4 * j + 1], k[4 * j + 2], k[4 * j + 3]] := by
  rw [keyExpansion_getElem? k (Nat.zero_le 40) h]
  interval_cases j <;> rfl

/-- Each word from the fourth on is `nextKeyWord` of the words before it; `p` is the word before, `q` the fourth before. -/
theorem keyExpansion_next (k : Block) {j : Nat} (h4 : 4 ≤ j) (h44 : j < 44) :
    ∃ (ws : List KeyWord) (p q : KeyWord), ws[0]? = some p ∧ ws[3]? = some q ∧
      (keyExpansion k)[j - 1]? = some p ∧ (keyExpansion k)[j - 4]? = some q ∧
      (keyExpansion k)[j]? = some (nextKeyWord j ws) := by
  obtain ⟨n, rfl⟩ := Nat.exists_eq_add_of_le h4
  have hlen := newestKeyWords_length k n
  have hbefore (i : Nat) (hi : i < 4) : (keyExpansion k)[n + 3 - i]? = some (newestKeyWords k n)[i] := by
    have hindex : n + 3 - (n + 3 - i) = i := by omega
    rw [keyExpansion_getElem? k (n := n) (by omega) (by omega), hindex, List.getElem?_eq_getElem]
  have hnext : (keyExpansion k)[4 + n]? = some (nextKeyWord (4 + n) (newestKeyWords k n)) := by
    have hindex : n + 1 + 3 - (4 + n) = 0 := by omega
    rw [keyExpansion_getElem? k (n := n + 1) (by omega) (by omega), hindex]
    rfl
  have hone : 4 + n - 1 = n + 3 - 0 := by omega
  have hfour : 4 + n - 4 = n + 3 - 3 := by omega
  rw [hone, hfour]
  exact ⟨newestKeyWords k n, _, _, List.getElem?_eq_getElem _, List.getElem?_eq_getElem _, hbefore 0 (by decide),
    hbefore 3 (by decide), hnext⟩

theorem rcon_succ (i : Nat) (hi : 1 ≤ i) : rcon (i + 1) = xtime (rcon i) := by
  obtain ⟨n, rfl⟩ := Nat.exists_eq_add_of_le' hi
  rfl

/-- R125: the words of the example key that the rule prints. -/
theorem keyExpansion_example :
    let ws := keyExpansion
      #v[0x2b, 0x7e, 0x15, 0x16, 0x28, 0xae, 0xd2, 0xa6, 0xab, 0xf7, 0x15, 0x88, 0x09, 0xcf, 0x4f, 0x3c]
    ws[4]? = some #v[0xa0, 0xfa, 0xfe, 0x17] ∧ ws[5]? = some #v[0x88, 0x54, 0x2c, 0xb1] ∧
      ws[40]? = some #v[0xd0, 0x14, 0xf9, 0xa8] ∧ ws[43]? = some #v[0xb6, 0x63, 0x0c, 0xa6] := by
  decide +kernel

/-- Settles O30: each word from the fourth on is `nextKeyWord` of the words before it, and the fixed values compute. -/
theorem keyExpansionMeetsItsRecurrence : Obligations.KeyExpansionMeetsItsRecurrence := by
  refine ⟨fun k => ⟨keyExpansion_length k, keyExpansion_column k, fun j h4 h44 => ?_⟩, keyExpansion_example,
    fun b w w' rnd => addRoundKey_congr b, by decide, rcon_succ⟩
  obtain ⟨ws, p, q, hp, hq, hbefore, hfourth, hnext⟩ := keyExpansion_next k h4 h44
  exact ⟨p, q, nextKeyWord j ws, hbefore, hfourth, hnext, fun hj => nextKeyWord_of_not_multiple hj hp hq,
    fun hj => nextKeyWord_of_multiple hj hp hq⟩

/-- Settles O27: both vectors through the whole cipher. -/
theorem aesMeetsTheReferenceVectors : Obligations.AesMeetsTheReferenceVectors := by
  unfold Obligations.AesMeetsTheReferenceVectors
  decide +kernel

end Sys2Proof.Machine

/-! PROOFS. The counter increment: it adds one to the block's value in the byte order `CTR_INC` names (R150), and the
counter blocks of two seeds are apart as their values are (R156). -/

namespace Sys2Proof.Machine

/-- The value of a block in the byte order the counter is incremented in. -/
def counterValue : CtrInc → Block → Nat
  | .le128 => intLE
  | .be128 => intBE

theorem counterValue_lt (m : CtrInc) (c : Block) : counterValue m c < 2 ^ 128 := by
  cases m
  · exact intLE_lt c
  · exact intBE_lt c

theorem counterValue_inc (m : CtrInc) (c : Block) :
    counterValue m (inc m c) = (counterValue m c + 1) % 2 ^ 128 := by
  cases m
  · exact intLE_leBlock _
  · exact intBE_beBlock _

theorem counterValue_iterate_inc (m : CtrInc) (c : Block) (n : Nat) :
    counterValue m ((inc m)^[n] c) = (counterValue m c + n) % 2 ^ 128 := by
  induction n with
  | zero => exact (Nat.mod_eq_of_lt (counterValue_lt m c)).symm
  | succ n ih => rw [Function.iterate_succ_apply', counterValue_inc, ih, Nat.mod_add_mod, Nat.add_assoc]

theorem intLE_injective {b c : Block} (h : intLE b = intLE c) : b = c := by
  rw [← leBlock_intLE b, h, leBlock_intLE]

/-- Little-endian increment is big-endian increment on the reversed block. -/
theorem reverseBlock_inc_le128 (c : Block) : reverseBlock (inc .le128 c) = inc .be128 (reverseBlock c) := by
  rw [inc, inc, reverseBlock_leBlock, intBE_eq_intLE_reverse, reverseBlock_reverseBlock]

theorem inc_allOnes (m : CtrInc) : inc m (Vector.replicate 16 0xFF) = Vector.replicate 16 0 := by
  cases m <;> decide +kernel

theorem exec_xorb (byte : Byte) (s : State) : exec (.xorb byte) s = .next (decryptByte byte s) :=
  rfl

/-- Settles O33: `inc` encodes the value plus one, and the XORB that wraps is one that finds the buffer empty. -/
theorem incAddsOneModuloTwoToThe128 : Obligations.IncAddsOneModuloTwoToThe128 := by
  refine ⟨fun c => ⟨rfl, rfl, counterValue_inc .le128 c, counterValue_inc .be128 c, reverseBlock_inc_le128 c⟩,
    inc_allOnes, fun byte s hlock hvalid hempty hones => ?_, rfl⟩
  have hctr : inc s.ctrInc s.ctr = Vector.replicate 16 0 := by rw [hones, inc_allOnes]
  have hexec := (exec_xorb byte s).trans (congrArg _ (decryptByte_of_empty byte s hlock hvalid hempty))
  refine ⟨_, _, hexec, rfl, respAcc_respWord _ _ _ _, ?_⟩
  rw [← hctr]
  rfl

theorem natOfBytesLE_replicate_zero_append (n : Nat) (l : List Byte) :
    natOfBytesLE (List.replicate n 0 ++ l) = 256 ^ n * natOfBytesLE l := by
  induction n with
  | zero => simp
  | succ n ih =>
    rw [List.replicate_succ, List.cons_append, natOfBytesLE, ih, Nat.pow_succ', Nat.mul_assoc]
    exact Nat.zero_add _

/-- The big-endian value of an initial counter block holds the seed's two bytes, swapped, above 112 zero bits. -/
theorem intBE_nonceExpand (v : Seed) :
    intBE (nonceExpand v) = 2 ^ 112 * (v.toNat / 256 + 256 * (v.toNat % 256)) := by
  have hv := v.isLt
  have hbytes : (nonceExpand v).toList.reverse =
      List.replicate 14 0 ++ [v.extractLsb' 8 8, v.extractLsb' 0 8] := by
    simp [Safety.nonceExpand_toList]
  rw [intBE, hbytes, natOfBytesLE_replicate_zero_append]
  simp only [natOfBytesLE, BitVec.extractLsb'_toNat, Nat.shiftRight_eq_div_pow]
  omega

/-- Within 2^128 increments no counter block comes twice. -/
theorem iterate_inc_ne_of_lt (m : CtrInc) (c : Block) {a b : Nat} (hab : a < b) (hb : b < 2 ^ 128) :
    (inc m)^[a] c ≠ (inc m)^[b] c := by
  intro h
  have hvalue := congrArg (counterValue m) h
  rw [counterValue_iterate_inc, counterValue_iterate_inc] at hvalue
  have hc := counterValue_lt m c
  omega

/-- Under LE128 block `n` after seed `v` is the initial block of seed `v + n`. -/
theorem iterate_inc_le128_nonceExpand {v w : Seed} {n : Nat} (h : v.toNat + n = w.toNat) :
    (inc .le128)^[n] (nonceExpand v) = nonceExpand w := by
  have hw := w.isLt
  have hvalue : intLE ((inc .le128)^[n] (nonceExpand v)) = (intLE (nonceExpand v) + n) % 2 ^ 128 :=
    counterValue_iterate_inc .le128 (nonceExpand v) n
  apply intLE_injective
  rw [hvalue, intLE_nonceExpand, intLE_nonceExpand, h]
  omega

/-- Under BE128 two seeds share no counter block in their first 2^112: the top sixteen bits hold the seed throughout. -/
theorem iterate_inc_be128_nonceExpand_ne {v w : Seed} {a b : Nat} (hne : v ≠ w) (ha : a < 2 ^ 112)
    (hb : b < 2 ^ 112) : (inc .be128)^[a] (nonceExpand v) ≠ (inc .be128)^[b] (nonceExpand w) := by
  intro h
  have hvalue (x : Seed) (n : Nat) :
      intBE ((inc .be128)^[n] (nonceExpand x)) = (intBE (nonceExpand x) + n) % 2 ^ 128 :=
    counterValue_iterate_inc .be128 (nonceExpand x) n
  have heq := congrArg intBE h
  rw [hvalue, hvalue, intBE_nonceExpand, intBE_nonceExpand] at heq
  have hv := v.isLt
  have hw := w.isLt
  exact hne (BitVec.eq_of_toNat_eq (by omega))

/-- Settles O39, from the values of the counter blocks. -/
theorem counterBlocksMeetOnlyWhereTheSpecSays : Obligations.CounterBlocksMeetOnlyWhereTheSpecSays := by
  refine ⟨fun m v a b => iterate_inc_ne_of_lt m (nonceExpand v), fun v w hvw => ?_,
    fun v w a b => iterate_inc_be128_nonceExpand_ne⟩
  have hmeet := iterate_inc_le128_nonceExpand (Nat.add_sub_cancel' hvw.le)
  refine ⟨hmeet, fun a b ha hb => ?_⟩
  rw [← hmeet, ← Function.iterate_add_apply]
  exact iterate_inc_ne_of_lt .le128 (nonceExpand v) (by omega) hb

end Sys2Proof.Machine

/-! PROOFS. One ciphertext byte by XORB: decrypted with the next keystream byte, or refused (R151, R152). -/

namespace Sys2Proof.Machine

/-- Settles O34: the two cases of the buffer, and STATUS is that of the state after the byte is taken. -/
theorem xorbTakesTheNextKeystreamByte : Obligations.XorbTakesTheNextKeystreamByte := by
  refine fun byte s hlock hvalid => ⟨fun hidx => ?_, fun hempty => ?_⟩
  · exact (exec_xorb byte s).trans (congrArg _ (decryptByte_of_buffered byte s hlock hvalid hidx))
  · exact (exec_xorb byte s).trans (congrArg _ (decryptByte_of_empty byte s hlock hvalid hempty))

/-- The cause `NOKEY` sets `E_NOKEY` and `LCAUSE`, and nothing else (R203). -/
theorem recordCause_nokey (s : State) : recordCause .nokey s = { s with eNokey := true, lcause := 2 } := by
  simp [recordCause, causeCode]

/-- The cause `NOCTR` sets `E_NOCTR` and `LCAUSE`, and nothing else (R203). -/
theorem recordCause_noctr (s : State) : recordCause .noctr s = { s with eNoctr := true, lcause := 3 } := by
  simp [recordCause, causeCode]

/-- Settles O35: each refusal writes what its cause does. -/
theorem xorbIsRefusedWithoutKeyOrCounter : Obligations.XorbIsRefusedWithoutKeyOrCounter := by
  refine fun byte s => ⟨fun hlock => ?_, fun hlock hvalid => ?_⟩
  · rw [exec_xorb, decryptByte_nokey byte s hlock, refuse, recordCause_nokey]
    rfl
  · rw [exec_xorb, decryptByte_noctr byte s hlock hvalid, refuse, recordCause_noctr]
    rfl

end Sys2Proof.Machine

/-! PROOFS. Decryption as a function of the ciphertext: by position and by block, and its own inverse (R153, R154). -/

namespace Sys2Proof.Machine

/-- Byte `n` of a seed's keystream: byte `n mod 16` of block `n div 16` (R153). -/
def streamByte (m : CtrInc) (k : Block) (v : Seed) (n : Nat) : Byte := (keystreamBlock m k v (n / 16))[n % 16]

theorem decrypt_eq_mapIdx_streamByte (m : CtrInc) (k : Block) (v : Seed) (text : List Byte) :
    decrypt m k v text = text.mapIdx fun n b => b ^^^ streamByte m k v n :=
  rfl

theorem decrypt_length (m : CtrInc) (k : Block) (v : Seed) (text : List Byte) :
    (decrypt m k v text).length = text.length :=
  List.length_mapIdx

theorem streamByte_of_block (m : CtrInc) (k : Block) (v : Seed) (b j : Nat) (hj : j < 16) :
    streamByte m k v (16 * b + j) = (keystreamBlock m k v b)[j] := by
  have hblock : (16 * b + j) / 16 = b := by omega
  have hbyte : (16 * b + j) % 16 = j := by omega
  simp only [streamByte, hblock, hbyte]

theorem decrypt_getElem? (m : CtrInc) (k : Block) (v : Seed) (text : List Byte) {n : Nat} (h : n < text.length) :
    (decrypt m k v text)[n]? = some (text[n] ^^^ streamByte m k v n) := by
  rw [decrypt_eq_mapIdx_streamByte, List.getElem?_mapIdx, List.getElem?_eq_getElem h, Option.map_some]

theorem decrypt_decrypt (m : CtrInc) (k : Block) (v : Seed) (text : List Byte) :
    decrypt m k v (decrypt m k v text) = text := by
  refine List.ext_getElem (by rw [decrypt_length, decrypt_length]) fun n _ _ => ?_
  simp only [decrypt_eq_mapIdx_streamByte, List.getElem_mapIdx]
  rw [BitVec.xor_assoc, BitVec.xor_self, BitVec.xor_zero]

/-- Settles O38: the same keystream byte is XORed twice. -/
theorem decryptIsItsOwnInverse : Obligations.DecryptIsItsOwnInverse :=
  fun m k v p => ⟨decrypt_decrypt m k v p, decrypt_length m k v p⟩

end Sys2Proof.Machine

/-! PROOFS. A run of ciphertext bytes: each takes the next byte of the seed's keystream (R151 to R153). -/

namespace Sys2Proof.Safety

open Sys2Proof.Machine

/-- The key is locked and the first `n` bytes of the keystream of seed `v` are taken: the counter has advanced once per
block begun, `KIDX` is past the last byte taken, and a buffered byte is one of block `n div 16`. -/
structure BytesTaken (v : Seed) (n : Nat) (s : State) : Prop where
  klock : s.klock = true
  cvalid : s.cvalid = true
  ctr : s.ctr = (inc s.ctrInc)^[(n + 15) / 16] (nonceExpand v)
  kidx : s.kidx.val = (n + 15) % 16 + 1
  ks : s.kidx.val < 16 → s.ks = keystreamBlock s.ctrInc s.key v (n / 16)

/-- Right after a seed is loaded none of its bytes is taken. -/
theorem bytesTaken_zero {v : Seed} {s : State} (hlock : s.klock = true) (hvalid : s.cvalid = true)
    (hctr : s.ctr = nonceExpand v) (hempty : s.kidx.val = 16) : BytesTaken v 0 s where
  klock := hlock
  cvalid := hvalid
  ctr := hctr
  kidx := hempty
  ks h := absurd hempty h.ne

/-- A buffered byte is the seed's byte `n`: `KIDX` stands at `n mod 16` of block `n div 16`. -/
theorem BytesTaken.keystreamByte_of_lt {v : Seed} {n : Nat} {s : State} (hs : BytesTaken v n s)
    (hlt : s.kidx.val < 16) :
    (keystreamByte s).1 = streamByte s.ctrInc s.key v n ∧ BytesTaken v (n + 1) (keystreamByte s).2 := by
  have hidx := hs.kidx
  have hbyte : s.kidx.val = n % 16 := by omega
  have hcount : (n + 1 + 15) / 16 = (n + 15) / 16 := by omega
  have hnext : s.kidx.val + 1 = (n + 1 + 15) % 16 + 1 := by omega
  rw [Machine.keystreamByte_of_lt s hlt]
  refine ⟨by simp only [streamByte, hs.ks hlt, hbyte], hs.klock, hs.cvalid, ?_, hnext, fun hmore => ?_⟩
  · rw [hcount]
    exact hs.ctr
  · have hmore' : s.kidx.val + 1 < 16 := hmore
    have hblock : (n + 1) / 16 = n / 16 := by omega
    rw [hblock]
    exact hs.ks hlt

/-- With the buffer empty byte `n` starts a block, and the counter stands at that block. -/
theorem BytesTaken.keystreamByte_of_empty {v : Seed} {n : Nat} {s : State} (hs : BytesTaken v n s)
    (hempty : s.kidx.val = 16) :
    (keystreamByte s).1 = streamByte s.ctrInc s.key v n ∧ BytesTaken v (n + 1) (keystreamByte s).2 := by
  have hidx := hs.kidx
  have hbyte : n % 16 = 0 := by omega
  have hcount : (n + 15) / 16 = n / 16 := by omega
  have hcount' : (n + 1 + 15) / 16 = (n + 15) / 16 + 1 := by omega
  have hnext : 0 + 1 = (n + 1 + 15) % 16 + 1 := by omega
  have hblock : (n + 1) / 16 = n / 16 := by omega
  have hgen : aes128 s.key s.ctr = keystreamBlock s.ctrInc s.key v (n / 16) := by
    rw [hs.ctr, hcount, keystreamBlock]
  rw [Machine.keystreamByte_of_empty s hempty]
  refine ⟨by simp only [streamByte, hgen, hbyte], hs.klock, hs.cvalid, ?_, hnext, fun _ => ?_⟩
  · rw [hcount', Function.iterate_succ_apply']
    exact congrArg (inc s.ctrInc) hs.ctr
  · rw [hblock]
    exact hgen

/-- The next keystream byte is the seed's byte `n`, buffered or not. -/
theorem BytesTaken.keystreamByte {v : Seed} {n : Nat} {s : State} (hs : BytesTaken v n s) :
    (keystreamByte s).1 = streamByte s.ctrInc s.key v n ∧ BytesTaken v (n + 1) (keystreamByte s).2 :=
  (kidx_cases s).elim hs.keystreamByte_of_lt hs.keystreamByte_of_empty

/-- Taking a keystream byte changes the keystream state alone. -/
theorem keystreamByte_frame (s : State) :
    (keystreamByte s).2 =
      { s with ctr := (keystreamByte s).2.ctr, ks := (keystreamByte s).2.ks, kidx := (keystreamByte s).2.kidx } := by
  rcases kidx_cases s with hlt | hempty
  · rw [keystreamByte_of_lt s hlt]
    rfl
  · rw [keystreamByte_of_empty s hempty]
    rfl

/-- A ciphertext byte is decrypted with the seed's byte `n`, and the keystream state alone changes. -/
theorem BytesTaken.decryptByte {v : Seed} {n : Nat} {s : State} (hs : BytesTaken v n s) (b : Byte) :
    ∃ ctr ks kidx, BytesTaken v (n + 1) { s with ctr := ctr, ks := ks, kidx := kidx } ∧
      decryptByte b s =
        acceptData (b ^^^ streamByte s.ctrInc s.key v n) { s with ctr := ctr, ks := ks, kidx := kidx } := by
  obtain ⟨hbyte, hnext⟩ := hs.keystreamByte
  rw [keystreamByte_frame] at hnext
  refine ⟨_, _, _, hnext, ?_⟩
  rw [decryptByte_accepted b s hs.klock hs.cvalid, hbyte, ← keystreamByte_frame]

/-- What the host's streams hold plays no part in the bytes taken. -/
theorem BytesTaken.withStreams {v : Seed} {n : Nat} {s : State} (hs : BytesTaken v n s) (inbox : List HostEvent)
    (outbox : List Word) : BytesTaken v n { s with inbox := inbox, outbox := outbox } :=
  ⟨hs.klock, hs.cvalid, hs.ctr, hs.kidx, hs.ks⟩

/-- A step with a command next that decrypts a byte answers the seed's byte `n` XORed with it; beside the streams the
keystream state alone changes. -/
theorem step_decryptByte {i : Instr} {b : Byte} {v : Seed} {n : Nat} {s : State} {rest : List HostEvent}
    (hs : BytesTaken v n s) (hexec : ∀ u, u.fpos = s.fpos → exec i u = .next (decryptByte b u))
    (h : s.inbox = .cmd (encode i) :: rest) :
    ∃ ctr ks kidx r,
      let t := { s with ctr := ctr, ks := ks, kidx := kidx, inbox := rest, outbox := s.outbox ++ [r] }
      step s = .next t ∧ BytesTaken v (n + 1) t ∧ acceptedData r ∧
        respData r = b ^^^ streamByte s.ctrInc s.key v n := by
  have hs' : BytesTaken v n (setInbox rest s) := hs.withStreams _ _
  obtain ⟨ctr, ks, kidx, htaken, hdecrypt⟩ := hs'.decryptByte b
  have hnext := (hexec (setInbox rest s) rfl).trans (congrArg _ hdecrypt)
  exact ⟨ctr, ks, kidx, _, step_of_issue h hnext, htaken.withStreams _ _, acceptedData_respWord _ _,
    respData_respWord _ _ _ _⟩

/-- A run of commands that each decrypt a byte, as XORB does and FRAMEB at position 8: the data bytes are the ciphertext XOR
the seed's keystream from byte `n` on, every one accepted, and beside the streams the keystream state alone changes. -/
theorem run_decryptBytes (command : Byte → Instr) (v : Seed) (c : List Byte) (n m : Nat) (s : State)
    (rest : List HostEvent) (hs : BytesTaken v n s)
    (hcommand : ∀ b u, u.fpos = s.fpos → exec (command b) u = .next (decryptByte b u))
    (h : s.inbox = issue (c.map command) ++ rest) :
    ∃ ctr ks kidx rs,
      let t := { s with ctr := ctr, ks := ks, kidx := kidx, inbox := rest, outbox := s.outbox ++ rs }
      run (c.length + m) s = run m t ∧ BytesTaken v (n + c.length) t ∧ (∀ q ∈ rs, acceptedData q) ∧
        rs.map respData = c.mapIdx fun i b => b ^^^ streamByte s.ctrInc s.key v (i + n) := by
  induction c generalizing n s with
  | nil =>
    obtain rfl : s.inbox = rest := h
    exact ⟨s.ctr, s.ks, s.kidx, [], by simp, by simpa using hs, by simp, rfl⟩
  | cons b c ih =>
    obtain ⟨ctr, ks, kidx, r, hstep, htaken, hr, hbyte⟩ := step_decryptByte hs (hcommand b) h
    obtain ⟨ctr', ks', kidx', rs, hrun, htaken', hrs, hdata⟩ := ih (n + 1) _ htaken hcommand rfl
    rw [List.append_assoc, List.singleton_append] at hrun htaken'
    have hcount : n + 1 + c.length = n + (b :: c).length := Nat.succ_add_eq_add_succ n c.length
    refine ⟨ctr', ks', kidx', r :: rs, ?_, hcount ▸ htaken', List.forall_mem_cons.mpr ⟨hr, hrs⟩, ?_⟩
    · rw [List.length_cons, Nat.add_right_comm, run_succ_of_step _ s _ hstep]
      exact hrun
    · rw [List.map_cons, List.mapIdx_cons, hbyte, hdata, Nat.zero_add]
      simp only [Nat.succ_add_eq_add_succ]

/-- A step with SEED issued next loads the seed and is accepted. -/
theorem step_seed (v : Seed) (s : State) (rest : List HostEvent) (h : s.inbox = .cmd (encode (.seed v)) :: rest) :
    ∃ r, acceptedPlain r ∧ step s = .next { s with
      ctr := nonceExpand v, cvalid := true, kidx := 16, inbox := rest, outbox := s.outbox ++ [r] } :=
  ⟨_, acceptedPlain_respWord 0 _, step_of_issue h (seedLoadsTheCounter v (setInbox rest s))⟩

/-- SEED and then XORB of each ciphertext byte, with the key locked: SEED is accepted, the data bytes are `Decrypt`, and
beside the counter, its keystream and the streams nothing changes. -/
theorem run_seed_xorbs (s : State) (v : Seed) (c : List Byte) (rest : List HostEvent) (hlock : s.klock = true)
    (h : s.inbox = issue (.seed v :: c.map .xorb) ++ rest) :
    ∃ ctr ks kidx r rs,
      let t := { s with
        ctr := ctr, cvalid := true, ks := ks, kidx := kidx, inbox := rest, outbox := s.outbox ++ r :: rs }
      run (c.length + 1) s = .next t ∧ BytesTaken v c.length t ∧ acceptedPlain r ∧ (∀ q ∈ rs, acceptedData q) ∧
        rs.map respData = decrypt s.ctrInc s.key v c := by
  obtain ⟨r, hr, hstep⟩ := step_seed v s _ h
  generalize hiv : nonceExpand v = iv at hstep
  let u : State := { s with
    ctr := iv, cvalid := true, kidx := 16, inbox := issue (c.map .xorb) ++ rest, outbox := s.outbox ++ [r] }
  have hstart : BytesTaken v 0 u := bytesTaken_zero hlock rfl hiv.symm rfl
  obtain ⟨ctr, ks, kidx, rs, hrun, htaken, hacc, hdata⟩ :=
    run_decryptBytes .xorb v c 0 0 u rest hstart (fun b u _ => exec_xorb b u) rfl
  rw [Nat.zero_add, List.append_assoc, List.singleton_append] at htaken
  rw [List.append_assoc, List.singleton_append] at hrun
  exact ⟨ctr, ks, kidx, r, rs, (run_succ_of_step _ s _ hstep).trans hrun, htaken, hr, hacc,
    hdata.trans (decrypt_eq_mapIdx_streamByte _ _ _ _).symm⟩

/-- Settles O36: by position, and by the run of the seed's XORBs. -/
theorem xorbStreamComputesDecrypt : Obligations.XorbStreamComputesDecrypt := by
  refine ⟨fun m k v text => ⟨decrypt_length m k v text, fun b j hj h => ?_⟩, fun s v c rest hlock h => ?_⟩
  · rw [decrypt_getElem? m k v text h, streamByte_of_block m k v b j hj, keystreamBlock]
  · obtain ⟨ctr, ks, kidx, r, rs, hrun, -, hr, hrs, hdata⟩ := run_seed_xorbs s v c rest hlock h
    exact ⟨_, r, rs, hrun, rfl, rfl, hr, hrs, hdata⟩

/-- Settles O37: the counter and `KIDX` after the run are those of the bytes taken. -/
theorem counterAdvancesOncePerBlock : Obligations.CounterAdvancesOncePerBlock := by
  intro s v c rest hlock h
  obtain ⟨ctr, ks, kidx, r, rs, hrun, htaken, -⟩ := run_seed_xorbs s v c rest hlock h
  have hidx := htaken.kidx
  exact ⟨_, hrun, htaken.ctr, by omega, by omega, rfl, rfl, rfl, rfl⟩

end Sys2Proof.Safety

/-! PROOFS. FRAMEB position by position and FRAMEEND, each with the whole next state (R170 to R176). -/

namespace Sys2Proof.Machine

theorem execFrameb_start (byte : Byte) (s : State) (h : s.fpos = 0) :
    exec (.frameb byte) s = .next (accept (setFpos 1 (setFpm false s))) := by
  rw [execFrameb_header byte s (by simp [h]), headerByte_start byte s h]
  simp [h]

theorem execFrameb_ignored (byte : Byte) (s : State) (h0 : 0 < s.fpos.val) (h5 : s.fpos.val < 5) :
    exec (.frameb byte) s = .next (accept (setFpos ⟨s.fpos.val + 1, by omega⟩ s)) := by
  rw [execFrameb_header byte s (by omega), headerByte_ignored byte s h0 h5]

theorem execFrameb_seedLow (byte : Byte) (s : State) (h : s.fpos.val = 5) :
    exec (.frameb byte) s = .next (accept (setFpos 6 (setFlo byte s))) := by
  rw [execFrameb_header byte s (by omega), headerByte_seedLow byte s h]
  simp [h]

theorem execFrameb_seedHigh (byte : Byte) (s : State) (h : s.fpos.val = 6) :
    exec (.frameb byte) s = .next (accept (setFpos 7 (loadSeed (seedOfBytes s.flo byte) s))) := by
  rw [execFrameb_header byte s (by omega), headerByte_seedHigh byte s h]
  simp [h]

theorem execFrameb_fingerprint (byte : Byte) (s : State) (h : s.fpos.val = 7) :
    exec (.frameb byte) s = .next (accept (setFpos 8 (setFpm (decide (byte ≠ s.key[0])) s))) := by
  rw [execFrameb_header byte s (by omega), headerByte_fingerprint byte s h]
  simp [h]

/-- Before the seed a byte moves `FPOS` and, where it starts the frame, clears `FPM` (R170, R171). -/
theorem execFrameb_beforeSeed (byte : Byte) (s : State) (h : s.fpos.val < 5) :
    exec (.frameb byte) s = .next (accept { s with
      fpos := ⟨s.fpos.val + 1, by omega⟩
      fpm := if s.fpos.val = 0 then false else s.fpm }) := by
  by_cases h0 : s.fpos.val = 0
  · rw [execFrameb_start byte s (Fin.ext h0)]
    simp [setFpos, setFpm, h0]
  · rw [execFrameb_ignored byte s (by omega) h]
    simp [setFpos, h0]

/-- Settles O42: the bytes before the seed, then its low byte. -/
theorem framebTakesTheBytesBeforeTheSeedCompletes : Obligations.FramebTakesTheBytesBeforeTheSeedCompletes :=
  fun byte s => ⟨execFrameb_beforeSeed byte s, execFrameb_seedLow byte s⟩

/-- Inside a frame STATUS does not show the position (R34). -/
theorem status_setFpos (p : Fin 9) (s : State) (hp : p ≠ 0) (h : s.fpos ≠ 0) : status (setFpos p s) = status s := by
  have hactive : frameActive (setFpos p s) = frameActive s := by simp [frameActive, hp, h]
  rw [status, hactive]
  rfl

/-- The seed's two bytes, low byte first (R51). -/
theorem seedOfBytes_low (lo hi : Byte) : (seedOfBytes lo hi).extractLsb' 0 8 = lo := by
  ext i h
  have : i < 16 := by omega
  simp [seedOfBytes, this, h]

theorem seedOfBytes_high (lo hi : Byte) : (seedOfBytes lo hi).extractLsb' 8 8 = hi := by
  ext i h
  have : 8 + i < 16 := by omega
  simp [seedOfBytes, this, BitVec.getLsbD_eq_getElem h]

/-- The initial counter block of a wire seed is its two bytes and fourteen zeros (R110, R173). -/
theorem nonceExpand_seedOfBytes (lo hi : Byte) :
    nonceExpand (seedOfBytes lo hi) = #v[lo, hi, 0, 0, 0, 0, 0, 0, 0, 0, 0, 0, 0, 0, 0, 0] := by
  apply Vector.toList_inj.mp
  rw [Safety.nonceExpand_toList, seedOfBytes_low, seedOfBytes_high]
  rfl

/-- Settles O43: both commands load the seed, and STATUS is the same at positions 6 and 7. -/
theorem framebHighByteIsSeed : Obligations.FramebHighByteIsSeed := by
  intro byte s h
  let u := loadSeed (seedOfBytes s.flo byte) s
  have hpos : u.fpos ≠ 0 := fun h0 : s.fpos = 0 => by simp [h0] at h
  have hstatus : status (setFpos 7 u) = status u := status_setFpos 7 u (by decide) hpos
  refine ⟨accept u, exec_seed _ s, ?_, nonceExpand_seedOfBytes s.flo byte, rfl, rfl⟩
  rw [execFrameb_seedHigh byte s h, accept, respond, hstatus]
  rfl

/-- Settles O44: the byte is compared with `KEY[0]`, locked or not. -/
theorem framebChecksTheFingerprint : Obligations.FramebChecksTheFingerprint :=
  execFrameb_fingerprint

@[simp] theorem decryptByte_fpos (byte : Byte) (s : State) : (decryptByte byte s).fpos = s.fpos := by
  obtain ⟨-, e⟩ | ⟨-, -, e⟩ | ⟨-, -, e⟩ := decryptByte_cases byte s <;> simp [e]

/-- Settles O45: both commands decrypt the byte. -/
theorem framebCiphertextIsXorb : Obligations.FramebCiphertextIsXorb := by
  intro byte s h
  have hexec := execFrameb_ciphertext byte s h
  refine ⟨hexec.trans (exec_xorb byte s).symm, fun t ht => ?_⟩
  obtain rfl := Host.Outcome.next.inj (hexec.symm.trans ht)
  exact decryptByte_fpos byte s

/-- The cause `SHORT` sets `E_SHORT` and `LCAUSE`, and nothing else (R203). -/
theorem recordCause_short (s : State) : recordCause .short s = { s with eShort := true, lcause := 5 } := by
  simp [recordCause, causeCode]

/-- Settles O47: the frame is short at positions 1 to 7 alone, and the cause is recorded over the frame's end. -/
theorem frameendEndsTheFrame : Obligations.FrameendEndsTheFrame := by
  refine fun s => ⟨fun hpos => ?_, fun h0 h8 => ?_⟩
  · have hfull : frameShort s = false := by
      rw [Bool.eq_false_iff, Ne, frameShort_eq_true]
      omega
    exact execFrameend_accepted s hfull
  · rw [execFrameend_short s ((frameShort_eq_true s).mpr ⟨h0, h8⟩), refuse, recordCause_short]
    rfl

end Sys2Proof.Machine

/-! PROOFS. The frame's coherence: a frame past its seed has a counter (R170, R172, R176). -/

namespace Sys2Proof.Safety

open Sys2Proof.Machine

/-- Every command keeps the frame coherent: the one that enters position 7 validates the counter, and the ones that leave a
latched byte behind clear it. -/
theorem effect_keeps_frameCoherent {s t : State} (h : Effect s t) (hs : FrameCoherent s) : FrameCoherent t := by
  obtain ⟨hvalid, hflo⟩ := hs
  cases h with
  | seeded v => exact ⟨fun _ => rfl, hflo⟩
  | decrypted byte hk hc => exact ⟨fun _ => by simpa using hc, by simpa using hflo⟩
  | frameStarted hp => exact ⟨by simp, fun _ => hflo (by simp [hp])⟩
  | headerPassed h0 h5 => exact ⟨fun h7 => absurd h7 (by simp; omega), fun _ => hflo (by omega)⟩
  | seedLow byte hp => exact ⟨by simp, by simp⟩
  | seedHigh byte hp => exact ⟨fun _ => rfl, by simp⟩
  | fingerprint byte hp => exact ⟨fun _ => hvalid (by simp [hp]), by simp⟩
  | frameEnded hf => exact ⟨by simp, fun _ => rfl⟩
  | frameCut hf => exact ⟨by simp, fun _ => rfl⟩
  | _ => exact ⟨hvalid, hflo⟩

/-- Settles O48: reset leaves no frame, and every command keeps the frame coherent. -/
theorem everyStepKeepsTheFrameCoherent : Obligations.EveryStepKeepsTheFrameCoherent :=
  fun s t hs h => step_keeps FrameCoherent (fun _ _ hs => hs) (fun _ _ => ⟨by simp [State.reset], fun _ => rfl⟩)
    (fun _ hs => hs) (fun _ _ hs h => effect_keeps_frameCoherent h hs) s t hs h

/-- In a coherent frame a FRAMEB is performed and keeps the error record, or the key is unlocked and it is refused `NOKEY`. -/
theorem FrameCoherent.execFrameb_cases {s : State} (hs : FrameCoherent s) (byte : Byte) :
    (∃ dv data u, exec (.frameb byte) s = .next (respond true dv data u) ∧ SameErrorRecord s u ∧
      u.outbox = s.outbox) ∨
    (s.klock = false ∧ exec (.frameb byte) s = .next (refuse .nokey s)) := by
  rcases fpos_cases s with hp | hp
  · obtain ⟨hrec, hout⟩ := headerByte_keeps_record byte s hp
    exact .inl ⟨false, 0, _, execFrameb_header byte s hp, hrec, hout⟩
  · rw [execFrameb_ciphertext byte s hp]
    obtain ⟨hk, e⟩ | ⟨-, hc, -⟩ | ⟨-, -, e⟩ := decryptByte_cases byte s
    · exact .inr ⟨hk, congrArg _ e⟩
    · rw [hs.1 (by omega)] at hc
      contradiction
    · exact .inl ⟨true, _, (keystreamByte s).2, congrArg _ e, by simp [sameErrorRecord_iff], by simp⟩

/-- Settles O49: performed, FRAMEB keeps the error record; refused, it records `NOKEY`. -/
theorem framebIsNeverRefusedForWantOfACounter : Obligations.FramebIsNeverRefusedForWantOfACounter := by
  intro byte s hs
  obtain ⟨dv, data, u, hexec, ⟨hsticky, hcause⟩, hout⟩ | ⟨hk, hexec⟩ := hs.execFrameb_cases byte
  · refine ⟨_, respWord true dv data (status u), hexec, by simp [hout], by simp, by simp, hsticky .noctr, ?_⟩
    exact fun h => hcause.symm.trans h
  · refine ⟨_, respWord false false 0 (status (recordCause .nokey s)), hexec, rfl, by simp [hk], fun _ => rfl, ?_, ?_⟩
    · simp
    · exact fun h => absurd h (by decide : causeCode .nokey ≠ causeCode .noctr)

end Sys2Proof.Safety

/-! PROOFS. A whole frame: its header, then its ciphertext with the keystream of the header's seed (R170 to R175). -/

namespace Sys2Proof.Safety

open Sys2Proof.Machine

/-- A step with a command issued next that is accepted without data adds one such response to the command's writes. -/
theorem step_of_accept {i : Instr} {s t : State} {rest : List HostEvent} (h : s.inbox = .cmd (encode i) :: rest)
    (hexec : exec i (setInbox rest s) = .next (accept t)) :
    ∃ r, acceptedPlain r ∧ step s = .next { t with outbox := t.outbox ++ [r] } :=
  ⟨_, acceptedPlain_respWord 0 _, step_of_issue h hexec⟩

/-! A step with a FRAMEB issued next, at each position of the header. -/

section HeaderSteps

variable {b : Byte} {s : State} {rest : List HostEvent} (h : s.inbox = .cmd (encode (.frameb b)) :: rest)
include h

theorem step_frameb_beforeSeed (hpos : s.fpos.val < 5) :
    ∃ r fpm, acceptedPlain r ∧ step s = .next { s with
      fpos := ⟨s.fpos.val + 1, by omega⟩, fpm := fpm, inbox := rest, outbox := s.outbox ++ [r] } := by
  obtain ⟨r, hr, hstep⟩ := step_of_accept h (execFrameb_beforeSeed b (setInbox rest s) hpos)
  exact ⟨r, _, hr, hstep⟩

theorem step_frameb_seedLow (hpos : s.fpos.val = 5) :
    ∃ r, acceptedPlain r ∧
      step s = .next { s with fpos := 6, flo := b, inbox := rest, outbox := s.outbox ++ [r] } :=
  step_of_accept h (execFrameb_seedLow b (setInbox rest s) hpos)

theorem step_frameb_seedHigh (hpos : s.fpos.val = 6) :
    ∃ r, acceptedPlain r ∧ step s = .next { s with
      ctr := nonceExpand (seedOfBytes s.flo b), cvalid := true, kidx := 16, fpos := 7, inbox := rest
      outbox := s.outbox ++ [r] } := by
  have hexec := execFrameb_seedHigh b (setInbox rest s) hpos
  -- written out as a record, the state is compared field by field and `nonceExpand` is never unfolded
  simp only [setFpos, loadSeed, setInbox] at hexec
  exact step_of_accept h hexec

theorem step_frameb_fingerprint (hpos : s.fpos.val = 7) :
    ∃ r, acceptedPlain r ∧ step s = .next { s with
      fpos := 8, fpm := decide (b ≠ s.key[0]), inbox := rest, outbox := s.outbox ++ [r] } :=
  step_of_accept h (execFrameb_fingerprint b (setInbox rest s) hpos)

end HeaderSteps

/-- Bytes before the seed are accepted, and beside the streams `FPOS` and `FPM` alone change (R171). -/
theorem run_bytesBeforeSeed (bytes : List Byte) (n : Nat) (s : State) (rest : List HostEvent)
    (hpos : s.fpos.val + bytes.length ≤ 5) (h : s.inbox = issue (bytes.map .frameb) ++ rest) :
    ∃ fpos fpm rs,
      run (bytes.length + n) s =
        run n { s with fpos := fpos, fpm := fpm, inbox := rest, outbox := s.outbox ++ rs } ∧
      fpos.val = s.fpos.val + bytes.length ∧ rs.length = bytes.length ∧ ∀ r ∈ rs, acceptedPlain r := by
  induction bytes generalizing s with
  | nil =>
    obtain rfl : s.inbox = rest := h
    exact ⟨s.fpos, s.fpm, [], by simp, rfl, rfl, by simp⟩
  | cons b bytes ih =>
    rw [List.length_cons] at hpos ⊢
    obtain ⟨r, fpm, hr, hstep⟩ := step_frameb_beforeSeed h (by omega)
    obtain ⟨fpos, fpm', rs, hrun, hnext, hlen, hacc⟩ := ih { s with
      fpos := ⟨s.fpos.val + 1, by omega⟩, fpm := fpm, inbox := issue (bytes.map .frameb) ++ rest
      outbox := s.outbox ++ [r] } (Nat.succ_add_eq_add_succ _ _ ▸ hpos) rfl
    refine ⟨fpos, fpm', r :: rs, ?_, hnext.trans (Nat.succ_add_eq_add_succ _ _), congrArg (· + 1) hlen,
      List.forall_mem_cons.mpr ⟨hr, hacc⟩⟩
    rw [Nat.add_right_comm, run_succ_of_step _ s _ hstep, List.append_cons s.outbox r rs]
    exact hrun

/-- The three bytes from position 5 on are accepted: the first two load their seed, the third is compared with `KEY[0]`, and
`FPOS` ends at the ciphertext (R172 to R174). -/
theorem run_seedAndFingerprint (lo hi fp : Byte) (n : Nat) (s : State) (rest : List HostEvent) (hpos : s.fpos.val = 5)
    (h : s.inbox = issue ([lo, hi, fp].map .frameb) ++ rest) :
    ∃ rs,
      run (n + 3) s = run n { s with
        ctr := nonceExpand (seedOfBytes lo hi), cvalid := true, kidx := 16, fpos := 8, flo := lo
        fpm := decide (fp ≠ s.key[0]), inbox := rest, outbox := s.outbox ++ rs } ∧
      rs.length = 3 ∧ ∀ r ∈ rs, acceptedPlain r := by
  obtain ⟨r5, h5, hlow⟩ := step_frameb_seedLow h hpos
  obtain ⟨r6, h6, hhigh⟩ := step_frameb_seedHigh (b := hi) (s := { s with
    fpos := 6, flo := lo, inbox := issue ([hi, fp].map .frameb) ++ rest, outbox := s.outbox ++ [r5] }) rfl rfl
  generalize nonceExpand (seedOfBytes lo hi) = iv at hhigh ⊢
  obtain ⟨r7, h7, hprint⟩ := step_frameb_fingerprint (b := fp) (s := { s with
    ctr := iv, cvalid := true, kidx := 16, fpos := 7, flo := lo, inbox := issue ([fp].map .frameb) ++ rest
    outbox := s.outbox ++ [r5] ++ [r6] }) rfl rfl
  refine ⟨[r5, r6, r7], ?_, rfl, by simp [h5, h6, h7]⟩
  rw [run_succ_of_step _ s _ hlow]
  refine (run_succ_of_step _ _ _ hhigh).trans ((run_succ_of_step _ _ _ hprint).trans ?_)
  simp

/-- A slice of at least eight bytes: five before the seed, the seed's two, the fingerprint, and the ciphertext. -/
theorem slice_split (slice : List Byte) (h : 8 ≤ slice.length) :
    slice.take 5 ++ [slice[5], slice[6], slice[7]] ++ slice.drop 8 = slice := by
  have hdrop : slice.drop 5 = [slice[5], slice[6], slice[7]] ++ slice.drop 8 := by
    rw [List.drop_eq_getElem_cons (show 5 < slice.length by omega),
      List.drop_eq_getElem_cons (show 6 < slice.length by omega),
      List.drop_eq_getElem_cons (show 7 < slice.length by omega)]
    rfl
  rw [List.append_assoc, ← hdrop, List.take_append_drop]

theorem issue_slice (slice : List Byte) (h : 8 ≤ slice.length) (rest : List HostEvent) :
    issue (slice.map .frameb) ++ rest = issue ((slice.take 5).map .frameb) ++
      (issue ([slice[5], slice[6], slice[7]].map .frameb) ++ (issue ((slice.drop 8).map .frameb) ++ rest)) := by
  rw [← List.append_assoc, ← List.append_assoc, ← issue_append, ← issue_append, ← List.map_append, ← List.map_append,
    slice_split slice h]

/-- The eight bytes of the header, from a framer at position 0: all are accepted without data, the seed in them is loaded and
the fingerprint compared, and the ciphertext is next (R171 to R174). -/
theorem run_header (first : List Byte) (lo hi fp : Byte) (n : Nat) (s : State) (rest : List HostEvent)
    (hfirst : first.length = 5) (hpos : s.fpos.val = 0)
    (h : s.inbox = issue (first.map .frameb) ++ (issue ([lo, hi, fp].map .frameb) ++ rest)) :
    ∃ rs,
      run (n + 8) s = run n { s with
        ctr := nonceExpand (seedOfBytes lo hi), cvalid := true, kidx := 16, fpos := 8, flo := lo
        fpm := decide (fp ≠ s.key[0]), inbox := rest, outbox := s.outbox ++ rs } ∧
      rs.length = 8 ∧ ∀ r ∈ rs, acceptedPlain r := by
  obtain ⟨fpos, fpm, rs, hrun, hnext, hlen, hrs⟩ := run_bytesBeforeSeed first (n + 3) s _ (by omega) h
  obtain ⟨qs, hrun', hlen', hqs⟩ := run_seedAndFingerprint lo hi fp n
    { s with fpos := fpos, fpm := fpm, inbox := _, outbox := s.outbox ++ rs } rest (by rw [hnext, hpos, hfirst]) rfl
  refine ⟨rs ++ qs, ?_, by rw [List.length_append, hlen, hlen', hfirst], List.forall_mem_append.mpr ⟨hrs, hqs⟩⟩
  rw [hfirst, Nat.add_comm] at hrun
  rw [← List.append_assoc]
  exact hrun.trans hrun'

/-- Settles O46: the header loads its seed and takes none of its keystream, and every byte after it is decrypted. -/
theorem frameComputesDecrypt : Obligations.FrameComputesDecrypt := by
  intro s slice rest h hlock hpos hin
  obtain ⟨hs, hheader, hlen, hplain⟩ := run_header (slice.take 5) slice[5] slice[6] slice[7] (slice.drop 8).length s _
    (by rw [List.length_take]; omega) hpos (hin.trans (issue_slice slice h rest))
  rw [List.length_drop, Nat.sub_add_cancel h] at hheader
  generalize seedOfBytes slice[5] slice[6] = v at hheader ⊢
  generalize hiv : nonceExpand v = iv at hheader
  let u : State := { s with
    ctr := iv, cvalid := true, kidx := 16, fpos := 8, flo := slice[5], fpm := decide (slice[7] ≠ s.key[0])
    inbox := issue ((slice.drop 8).map .frameb) ++ rest, outbox := s.outbox ++ hs }
  have hstart : BytesTaken v 0 u := bytesTaken_zero hlock rfl hiv.symm rfl
  obtain ⟨ctr, ks, kidx, rs, hrun, -, hrs, hdata⟩ := run_decryptBytes .frameb v (slice.drop 8) 0 0 u rest hstart
    (fun b w hw => execFrameb_ciphertext b w (congrArg Fin.val hw)) rfl
  rw [Nat.add_zero, List.length_drop] at hrun
  exact ⟨_, hs, rs, hheader.trans hrun, rfl, List.append_assoc .., hlen, hplain, hrs,
    hdata.trans (decrypt_eq_mapIdx_streamByte _ _ _ _).symm, rfl, rfl⟩

end Sys2Proof.Safety

/-! PROOFS. The control commands NOP and CLRERR (45_control.md). -/

namespace Sys2Proof.Machine

theorem exec_nop (s : State) : exec .nop s = .next (accept s) :=
  rfl

theorem exec_clrerr (s : State) : exec .clrerr s = .next (accept (clearErrors s)) :=
  rfl

/-- With the error record cleared, STATUS bits 15..8 are 0 (R34, R191): they are the five sticky bits and `LCAUSE`. -/
theorem status_clearErrors (s : State) : (status (clearErrors s)).extractLsb' 8 8 = 0 := by
  ext i hi
  interval_cases i <;> simp [status, statusBit]

/-- Settles O50: NOP accepts from the state as it stands. -/
theorem nopOnlyResponds : Obligations.NopOnlyResponds := by
  intro s
  exact exec_nop s

/-- Settles O51: CLRERR accepts after `clearErrors`, which writes the error record alone. -/
theorem clrerrClearsTheErrorRecord : Obligations.ClrerrClearsTheErrorRecord := by
  intro s
  exact ⟨exec_clrerr s, status_clearErrors s⟩

end Sys2Proof.Machine

/-! PROOFS. No event stops the block (R201, R234). -/

namespace Sys2Proof.Safety

open Sys2Proof.Machine

/-- Every event is answered with a next state, and none touches the events still pending. -/
theorem performEvent_answers (e : HostEvent) (s : State) : ∃ t, performEvent e s = .next t ∧ t.inbox = s.inbox := by
  cases e with
  | rst => exact ⟨applyReset s, rfl, rfl⟩
  | cmd w =>
    obtain ⟨acc, dv, data, t, he, -⟩ := performWord_responds w s
    exact ⟨_, he, (performWord_effect w s _ he).inbox_eq⟩

/-- Settles O12: with no event pending the step is idle, else it takes the next one, which is answered. -/
theorem everyStepAnswersANextState : Obligations.EveryStepAnswersANextState := by
  intro s
  cases hb : s.inbox with
  | nil => exact ⟨s, by simp [step, hb], hb, fun _ => rfl⟩
  | cons e rest =>
    obtain ⟨t, ht, hin⟩ := performEvent_answers e (setInbox rest s)
    exact ⟨t, (step_of_cons s e rest hb).trans ht, hin, nofun⟩

end Sys2Proof.Safety

/-! PROOFS. The error record never changes what a command does (R201): the state is compared with the same state holding
another error record. -/

namespace Sys2Proof.Safety

open Sys2Proof.Machine

/-- The state `s` with the error record of `r`. -/
def withRecord (r s : State) : State :=
  { s with
    eIll := r.eIll, eNokey := r.eNokey, eNoctr := r.eNoctr, eKlock := r.eKlock, eShort := r.eShort, lcause := r.lcause }

/-- The results `x` and `y` of a command that was given in `s`, and in `s` with another error record: both make the same
writes, but for the record, and then respond with the same ACC, DV and DATA. -/
def RespondAlike (s : State) (x y : Result) : Prop :=
  ∃ (acc dv : Bool) (data : Byte) (t r : State), x = .next (respond acc dv data t) ∧
    y = .next (respond acc dv data (withRecord r t)) ∧ t.outbox = s.outbox

theorem respondAlike_accept {s t : State} (r : State) (hout : t.outbox = s.outbox) :
    RespondAlike s (.next (accept t)) (.next (accept (withRecord r t))) :=
  ⟨true, false, 0, t, r, rfl, rfl, hout⟩

theorem respondAlike_acceptData {s t : State} (data : Byte) (r : State) (hout : t.outbox = s.outbox) :
    RespondAlike s (.next (acceptData data t)) (.next (acceptData data (withRecord r t))) :=
  ⟨true, true, data, t, r, rfl, rfl, hout⟩

/-- A refusal writes over either record. -/
theorem respondAlike_refuse {s t : State} (c : Cause) (r : State) (hout : t.outbox = s.outbox) :
    RespondAlike s (.next (refuse c t)) (.next (refuse c (withRecord r t))) :=
  ⟨false, false, 0, recordCause c t, recordCause c (withRecord r t), rfl, rfl, hout⟩

theorem keystreamByte_withRecord (r s : State) :
    keystreamByte (withRecord r s) = ((keystreamByte s).1, withRecord r (keystreamByte s).2) := by
  rcases kidx_cases s with hlt | hempty
  · rw [keystreamByte_of_lt s hlt]
    exact keystreamByte_of_lt (withRecord r s) hlt
  · rw [keystreamByte_of_empty s hempty]
    exact keystreamByte_of_empty (withRecord r s) hempty

theorem headerByte_withRecord (byte : Byte) (r s : State) (h : s.fpos.val < 8) :
    headerByte byte (startFrame (withRecord r s)) = withRecord r (headerByte byte (startFrame s)) := by
  obtain ⟨hp, e⟩ | ⟨h0, h5, e⟩ | ⟨hp, e⟩ | ⟨hp, e⟩ | ⟨hp, e⟩ := headerByte_cases byte s h <;> rw [e]
  · exact headerByte_start byte (withRecord r s) hp
  · exact headerByte_ignored byte (withRecord r s) h0 h5
  · exact headerByte_seedLow byte (withRecord r s) hp
  · exact headerByte_seedHigh byte (withRecord r s) hp
  · exact headerByte_fingerprint byte (withRecord r s) hp

/-- Neither the check of a ciphertext byte nor its keystream byte depends on the record. -/
theorem decryptByte_respondAlike (byte : Byte) (r s : State) :
    RespondAlike s (.next (decryptByte byte s)) (.next (decryptByte byte (withRecord r s))) := by
  obtain ⟨hk, e⟩ | ⟨hk, hc, e⟩ | ⟨hk, hc, e⟩ := decryptByte_cases byte s
  · rw [e, decryptByte_nokey byte (withRecord r s) hk]
    exact respondAlike_refuse .nokey r rfl
  · rw [e, decryptByte_noctr byte (withRecord r s) hk hc]
    exact respondAlike_refuse .noctr r rfl
  · rw [e, decryptByte_accepted byte (withRecord r s) hk hc, keystreamByte_withRecord]
    exact respondAlike_acceptData _ r (keystreamByte_outbox s)

/-- Every command makes its checks and its writes without the record. -/
theorem exec_respondAlike (i : Instr) (r s : State) : RespondAlike s (exec i s) (exec i (withRecord r s)) := by
  cases i with
  | nop => exact respondAlike_accept (t := s) r rfl
  | keyb idx byte =>
    cases hk : s.klock
    · rw [execKeyb_unlocked idx byte s hk, execKeyb_unlocked idx byte (withRecord r s) hk]
      exact respondAlike_accept r rfl
    · rw [execKeyb_locked idx byte s hk, execKeyb_locked idx byte (withRecord r s) hk]
      exact respondAlike_refuse .keylocked r rfl
  | keylock =>
    cases hk : s.klock
    · rw [execKeylock_unlocked s hk, execKeylock_unlocked (withRecord r s) hk]
      exact respondAlike_accept r rfl
    · rw [execKeylock_locked s hk, execKeylock_locked (withRecord r s) hk]
      exact respondAlike_refuse .keylocked r rfl
  | seed v => exact respondAlike_accept (t := loadSeed v s) r rfl
  | xorb byte => exact decryptByte_respondAlike byte r s
  | frameb byte =>
    rcases fpos_cases s with hp | hp
    · obtain ⟨-, hout⟩ := headerByte_keeps_record byte s hp
      rw [execFrameb_header byte s hp, execFrameb_header byte (withRecord r s) hp, headerByte_withRecord byte r s hp]
      exact respondAlike_accept r hout
    · rw [execFrameb_ciphertext byte s hp, execFrameb_ciphertext byte (withRecord r s) hp]
      exact decryptByte_respondAlike byte r s
  | frameend =>
    cases hf : frameShort s
    · rw [execFrameend_accepted s hf, execFrameend_accepted (withRecord r s) hf]
      exact respondAlike_accept r rfl
    · rw [execFrameend_short s hf, execFrameend_short (withRecord r s) hf]
      exact respondAlike_refuse .short r rfl
  | rdctr idx => exact respondAlike_acceptData (t := s) (readCtr idx s) r rfl
  | clrerr => exact respondAlike_accept (t := clearErrors s) (clearErrors s) rfl

theorem performWord_respondAlike (w : Word) (r s : State) :
    RespondAlike s (performWord w s) (performWord w (withRecord r s)) := by
  cases hd : decode w with
  | instr i =>
    rw [performWord_instr w i s hd, performWord_instr w i _ hd]
    exact exec_respondAlike i r s
  | illegal why =>
    rw [performWord_illegal w why s hd, performWord_illegal w why _ hd]
    exact respondAlike_refuse .illegal r rfl

/-- Settles O55: the second state is the first with another record, and the two results respond alike. -/
theorem errorRecordDoesNotSteerTheBlock : Obligations.ErrorRecordDoesNotSteerTheBlock := by
  intro w s u hu
  have hrec : withRecord u s = u := hu.symm
  have hsame : u.outbox = s.outbox := by rw [hu]
  obtain ⟨acc, dv, data, t, r, hs, hu', hout⟩ := performWord_respondAlike w u s
  rw [hrec] at hu'
  refine ⟨_, _, respWord acc dv data (status t), respWord acc dv data (status (withRecord r t)), hs, hu', rfl, ?_, ?_, ?_⟩
  · rw [respond_outbox, hout]
  · rw [respond_outbox, hsame, ← hout]
    rfl
  · simp

end Sys2Proof.Safety

/-! PROOFS. Reset and the hazards (70_reset_and_hazards.md): what `RST` leaves, and the premises `Clean` and `Idle` across a
FRAMEEND. -/

namespace Sys2Proof.Safety

open Sys2Proof.Machine

theorem clean_reset : Clean State.reset :=
  ⟨rfl, rfl, rfl, rfl, rfl, rfl⟩

theorem idle_reset : Idle State.reset :=
  ⟨rfl, rfl, rfl, rfl⟩

/-- STATUS shows none of the three fields that reset keeps. -/
theorem status_applyReset (s : State) : status (applyReset s) = 0x0010 := by
  obtain ⟨-, hreset⟩ := statusWordHoldsItsFields
  exact hreset

/-- The NOP after a reset answers `0x00100200` (R231). -/
theorem exec_nop_applyReset_outbox (s u : State) (h : exec .nop (applyReset s) = .next u) :
    u.outbox = (applyReset s).outbox ++ [0x00100200] := by
  obtain rfl := Host.Outcome.next.inj (exec_nop (applyReset s) ▸ h)
  rw [accept, respond_outbox, status_applyReset]
  rfl

/-- No event but reset takes a locked key to an unlocked one (R231): no command unlocks it. -/
theorem performEvent_unlocks (e : HostEvent) (s t : State) (h : performEvent e s = .next t) (hs : s.klock = true)
    (ht : t.klock = false) : e = .rst := by
  cases e with
  | rst => rfl
  | cmd w =>
    obtain ⟨-, hlock⟩ := (performWord_effect w s t h).locked_key_stays hs
    rw [ht] at hlock
    contradiction

/-- Settles O11: the elements are those of `applyReset`, and the lock is cleared by no command. -/
theorem resetSetsEveryStateElement : Obligations.ResetSetsEveryStateElement :=
  ⟨fun s => ⟨applyReset s, rfl, rfl, rfl, rfl, rfl, rfl, rfl, rfl, rfl, rfl, rfl, rfl, rfl, rfl, rfl, rfl,
    status_applyReset s, exec_nop_applyReset_outbox s, rfl⟩, performEvent_unlocks⟩

/-- Settles O10: the step takes the event and applies the reset, which responds nothing. -/
theorem resetReturnsNoResponse : Obligations.ResetReturnsNoResponse :=
  fun s rest hb => step_of_cons s .rst rest hb

/-- No cause has the code 0 (R200). -/
theorem causeCode_ne_zero (c : Cause) : causeCode c ≠ 0 := by
  cases c <;> decide

/-- After a refusal `LCAUSE` holds the code of a cause. -/
theorem not_clean_refuse (c : Cause) (s : State) : ¬ Clean (refuse c s) := by
  rintro ⟨-, -, -, -, -, hzero⟩
  exact causeCode_ne_zero c hzero

/-- Refused or not, FRAMEEND makes the writes of `endFrame`. -/
theorem execFrameend_idle (s t : State) (h : exec .frameend s = .next t) : Idle t := by
  cases hf : frameShort s
  · obtain rfl := Host.Outcome.next.inj (execFrameend_accepted s hf ▸ h)
    exact ⟨rfl, rfl, rfl, rfl⟩
  · obtain rfl := Host.Outcome.next.inj (execFrameend_short s hf ▸ h)
    exact ⟨rfl, rfl, rfl, rfl⟩

/-- A FRAMEEND whose frame is not short leaves the error record as it was. -/
theorem execFrameend_clean {s t : State} (hf : frameShort s = false) (h : exec .frameend s = .next t) (hs : Clean s) :
    Clean t := by
  obtain rfl := Host.Outcome.next.inj (execFrameend_accepted s hf ▸ h)
  exact hs

/-- Settles O57, by whether the frame is short. -/
theorem frameendLeavesIdle : Obligations.FrameendLeavesIdle := by
  refine ⟨fun s t h => ⟨execFrameend_idle s t h, fun hpos hs => ?_, fun h0 h8 => ?_⟩, clean_reset, idle_reset⟩
  · have hfull : frameShort s = false := by
      rw [← Bool.not_eq_true, frameShort_eq_true]
      omega
    exact execFrameend_clean hfull h hs
  · obtain rfl := Host.Outcome.next.inj (execFrameend_short s ((frameShort_eq_true s).mpr ⟨h0, h8⟩) ▸ h)
    exact not_clean_refuse .short (endFrame s)

/-- Settles O58: reset buffers nothing, has `KS` zero, is in no frame and is clean. -/
theorem resetMeetsTheInvariants : Obligations.ResetMeetsTheInvariants :=
  ⟨keystreamCoherent_of_empty rfl, fun _ => ⟨rfl, rfl⟩, ⟨by simp [State.reset], fun _ => rfl⟩, .inl clean_reset⟩

end Sys2Proof.Safety
